-- ==== Sys2Proof/Word.lean ====
section
/-! DEFINITION. The two word sizes of the machine (rule R7): the 8-bit register and memory byte, and the
16-bit value of register pairs, SP, PC, memory addresses and port addresses. Arithmetic on both wraps
("All address and register arithmetic is modular", rule R56), which is what `BitVec` arithmetic does. -/

namespace Sys2Proof

/-- An 8-bit register, a memory byte, an instruction byte (rule R7). -/
abbrev Byte := BitVec 8

/-- A 16-bit register pair, SP, PC, memory address or port address (rule R7). -/
abbrev Word := BitVec 16

end Sys2Proof
end

