-- ==== Sys2Proof/Machine/Bits.lean ====
section
/-! DEFINITION. The bit-field, sign-extension and byte-order helpers of rules R9 and R10. -/

namespace Sys2Proof

/-- `h:l`, the 16-bit value `high*256+low` (rules R9 and R22). -/
def pair (h l : Byte) : Word := h ++ l

/-- `hi(w) = w[15:8]` (rule R9). -/
def hiByte (w : Word) : Byte := w.extractLsb' 8 8

/-- `lo(w) = w[7:0]` (rule R9). -/
def loByte (w : Word) : Byte := w.extractLsb' 0 8

/-- `sext_8(b)`: b read as two's complement, −128..127, as a 16-bit addend (rule R10). -/
def sext8 (b : Byte) : Word := b.signExtend 16

/-- A flag value at bit position `k` of the flag byte: the `x<<k` of the formulas of 40_flag_tables.md. -/
def flagAt (k : Nat) (x : Bool) : Byte := if x then 1#8 <<< k else 0#8

end Sys2Proof
end

