-- ==== Sys2Proof/Syntax.lean ====
section
/-! DEFINITION. The instruction set as syntax: `Instr` has one constructor for each of the 203 rows of
spec/opcode_table.json, in the table's order, each with the operands its row's fields give it (rules R91 to R96).

Names: `AtHL` is the operand (HL), `AtXY` is (XY+d), `AtNn` is (nn), `Ind` is (BC) or (DE), `XYH` is an index half XYh or
XYl, `R`/`N` a register or an immediate byte, `Rp` a register pair. Undocumented duplicates keep the field that tells
them apart (`y`, `x`, `z`), so that no bit of an encoding is lost. -/

namespace Sys2Proof

/-- The 8-bit register field (rule R91) without its value 6, which selects (HL) and has constructors of its own. -/
inductive Reg8 where
  | b | c | d | e | h | l | a
  deriving DecidableEq, Repr

/-- The pair field `rp` (rule R92). -/
inductive RegPair where
  | bc | de | hl | sp
  deriving DecidableEq, Repr

/-- The pair field `rp2` of PUSH and POP (rule R92). -/
inductive StackPair where
  | bc | de | hl | af
  deriving DecidableEq, Repr

/-- The pair field `pp` of `ADD XY,pp`: value 2 is the index register itself (rules R92 and R212). -/
inductive IdxPair where
  | bc | de | xy | sp
  deriving DecidableEq, Repr

/-- The selector `q` of `LD A,(BC/DE)` and `LD (BC/DE),A` (rules R165 and R166). -/
inductive IndPair where
  | bc | de
  deriving DecidableEq, Repr

/-- The condition field (rule R93). -/
inductive Cond where
  | nz | z | nc | c | po | pe | p | m
  deriving DecidableEq, Repr

/-- The index register a DD (IX) or FD (IY) prefix selects (rule R82). -/
inductive XY where
  | ix | iy
  deriving DecidableEq, Repr

/-- The half of an index register: XYh or XYl (rule R95). -/
inductive Half where
  | hi | lo
  deriving DecidableEq, Repr

/-- One constructor per row of spec/opcode_table.json. -/
inductive Instr where
  -- The main table (rule R97), in the order of opcode_table.json.
  /-- `NOP`, rule R330. -/
  | nop
  /-- `LD rp,nn`, rule R169. -/
  | ldRpNn (rp : RegPair) (nn : Word)
  /-- `LD (BC/DE),A`, rule R166. -/
  | ldIndA (q : IndPair)
  /-- `INC rp`, rule R238. -/
  | incRp (rp : RegPair)
  /-- `INC r`, rule R230. -/
  | incR (r : Reg8)
  /-- `INC (HL)`, rule R232. -/
  | incAtHL
  /-- `DEC r`, rule R231. -/
  | decR (r : Reg8)
  /-- `DEC (HL)`, rule R233. -/
  | decAtHL
  /-- `LD r,n`, rule R161. -/
  | ldRN (r : Reg8) (n : Byte)
  /-- `LD (HL),n`, rule R164. -/
  | ldAtHLN (n : Byte)
  /-- `RLCA`, rule R245. -/
  | rlca
  /-- `RRCA`, rule R246. -/
  | rrca
  /-- `RLA`, rule R247. -/
  | rla
  /-- `RRA`, rule R248. -/
  | rra
  /-- `DAA`, rule R213. -/
  | daa
  /-- `CPL`, rule R214. -/
  | cpl
  /-- `SCF`, rule R216. -/
  | scf
  /-- `CCF`, rule R217. -/
  | ccf
  /-- `EX AF,AF'`, rule R320. -/
  | exAfAf
  /-- `ADD HL,rp`, rule R209. -/
  | addHLRp (rp : RegPair)
  /-- `LD A,(BC/DE)`, rule R165. -/
  | ldAInd (q : IndPair)
  /-- `DEC rp`, rule R239. -/
  | decRp (rp : RegPair)
  /-- `DJNZ e`, rule R306. -/
  | djnz (e : Byte)
  /-- `JR e`, rule R302. -/
  | jr (e : Byte)
  /-- `JR cc,e (NZ, Z, NC, C only)`, rule R303. -/
  | jrCc (cc : Cond) (e : Byte)
  /-- `LD (nn),HL`, rule R171. -/
  | ldAtNnHL (nn : Word)
  /-- `LD HL,(nn)`, rule R170. -/
  | ldHLAtNn (nn : Word)
  /-- `LD (nn),A`, rule R168. -/
  | ldAtNnA (nn : Word)
  /-- `LD A,(nn)`, rule R167. -/
  | ldAAtNn (nn : Word)
  /-- `LD r,r'`, rule R160. -/
  | ldRR (r : Reg8) (s : Reg8)
  /-- `LD r,(HL)`, rule R162. -/
  | ldRAtHL (r : Reg8)
  /-- `LD (HL),r'`, rule R163. -/
  | ldAtHLR (s : Reg8)
  /-- `HALT`, rule R331. -/
  | halt
  /-- `ADD A,r'`, rule R201. -/
  | addAR (s : Reg8)
  /-- `ADD A,(HL)`, rule R201. -/
  | addAAtHL
  /-- `ADD A,n`, rule R201. -/
  | addAN (n : Byte)
  /-- `ADC A,r'`, rule R202. -/
  | adcAR (s : Reg8)
  /-- `ADC A,(HL)`, rule R202. -/
  | adcAAtHL
  /-- `ADC A,n`, rule R202. -/
  | adcAN (n : Byte)
  /-- `SUB r'`, rule R203. -/
  | subR (s : Reg8)
  /-- `SUB (HL)`, rule R203. -/
  | subAtHL
  /-- `SUB n`, rule R203. -/
  | subN (n : Byte)
  /-- `SBC A,r'`, rule R204. -/
  | sbcAR (s : Reg8)
  /-- `SBC A,(HL)`, rule R204. -/
  | sbcAAtHL
  /-- `SBC A,n`, rule R204. -/
  | sbcAN (n : Byte)
  /-- `AND r'`, rule R205. -/
  | andR (s : Reg8)
  /-- `AND (HL)`, rule R205. -/
  | andAtHL
  /-- `AND n`, rule R205. -/
  | andN (n : Byte)
  /-- `XOR r'`, rule R206. -/
  | xorR (s : Reg8)
  /-- `XOR (HL)`, rule R206. -/
  | xorAtHL
  /-- `XOR n`, rule R206. -/
  | xorN (n : Byte)
  /-- `OR r'`, rule R207. -/
  | orR (s : Reg8)
  /-- `OR (HL)`, rule R207. -/
  | orAtHL
  /-- `OR n`, rule R207. -/
  | orN (n : Byte)
  /-- `CP r'`, rule R208. -/
  | cpR (s : Reg8)
  /-- `CP (HL)`, rule R208. -/
  | cpAtHL
  /-- `CP n`, rule R208. -/
  | cpN (n : Byte)
  /-- `RET cc`, rule R310. -/
  | retCc (cc : Cond)
  /-- `POP rp2`, rule R176. -/
  | popRp (rp : StackPair)
  /-- `JP cc,nn`, rule R301. -/
  | jpCcNn (cc : Cond) (nn : Word)
  /-- `JP nn`, rule R300. -/
  | jpNn (nn : Word)
  /-- `OUT (n),A`, rule R296. -/
  | outNA (n : Byte)
  /-- `IN A,(n)`, rule R293. -/
  | inAN (n : Byte)
  /-- `EX (SP),HL`, rule R323. -/
  | exSPHL
  /-- `EX DE,HL`, rule R321. -/
  | exDEHL
  /-- `DI`, rule R332. -/
  | di
  /-- `EI`, rule R333. -/
  | ei
  /-- `CALL cc,nn`, rule R308. -/
  | callCcNn (cc : Cond) (nn : Word)
  /-- `PUSH rp2`, rule R175. -/
  | pushRp (rp : StackPair)
  /-- `CALL nn`, rule R307. -/
  | callNn (nn : Word)
  /-- `RST p`, rule R311. -/
  | rst (p : BitVec 3)
  /-- `RET`, rule R309. -/
  | ret
  /-- `EXX`, rule R322. -/
  | exx
  /-- `JP (HL)`, rule R304. -/
  | jpHL
  /-- `LD SP,HL`, rule R174. -/
  | ldSPHL
  /-- `prefix CB: selects the CB table`, rule R82. -/
  | prefixCB
  /-- `prefix ED: selects the ED table`, rule R82. -/
  | prefixED
  /-- `prefix DD: selects the DD table (IX)`, rule R82. -/
  | prefixDD
  /-- `prefix FD: selects the FD table (IY)`, rule R82. -/
  | prefixFD
  -- The CB table (rule R98).
  /-- `RLC r'`, rule R250. -/
  | rlcR (s : Reg8)
  /-- `RLC (HL)`, rule R250. -/
  | rlcAtHL
  /-- `RRC r'`, rule R251. -/
  | rrcR (s : Reg8)
  /-- `RRC (HL)`, rule R251. -/
  | rrcAtHL
  /-- `RL r'`, rule R252. -/
  | rlR (s : Reg8)
  /-- `RL (HL)`, rule R252. -/
  | rlAtHL
  /-- `RR r'`, rule R253. -/
  | rrR (s : Reg8)
  /-- `RR (HL)`, rule R253. -/
  | rrAtHL
  /-- `SLA r'`, rule R254. -/
  | slaR (s : Reg8)
  /-- `SLA (HL)`, rule R254. -/
  | slaAtHL
  /-- `SRA r'`, rule R255. -/
  | sraR (s : Reg8)
  /-- `SRA (HL)`, rule R255. -/
  | sraAtHL
  /-- `SLL r'`, rule R256. -/
  | sllR (s : Reg8)
  /-- `SLL (HL)`, rule R256. -/
  | sllAtHL
  /-- `SRL r'`, rule R257. -/
  | srlR (s : Reg8)
  /-- `SRL (HL)`, rule R257. -/
  | srlAtHL
  /-- `BIT b,r'`, rule R260. -/
  | bitR (b : BitVec 3) (s : Reg8)
  /-- `BIT b,(HL)`, rule R261. -/
  | bitAtHL (b : BitVec 3)
  /-- `RES b,r'`, rule R263. -/
  | resR (b : BitVec 3) (s : Reg8)
  /-- `RES b,(HL)`, rule R263. -/
  | resAtHL (b : BitVec 3)
  /-- `SET b,r'`, rule R264. -/
  | setR (b : BitVec 3) (s : Reg8)
  /-- `SET b,(HL)`, rule R264. -/
  | setAtHL (b : BitVec 3)
  -- The ED table (rule R99).
  /-- `IN r,(C)`, rule R294. -/
  | inRC (r : Reg8)
  /-- `IN F,(C)`, rule R295. -/
  | inFC
  /-- `OUT (C),r`, rule R297. -/
  | outCR (r : Reg8)
  /-- `OUT (C),0`, rule R298. -/
  | outC0
  /-- `SBC HL,rp`, rule R211. -/
  | sbcHLRp (rp : RegPair)
  /-- `ADC HL,rp`, rule R210. -/
  | adcHLRp (rp : RegPair)
  /-- `LD (nn),rp (ED form)`, rule R173. -/
  | ldAtNnRp (rp : RegPair) (nn : Word)
  /-- `LD rp,(nn) (ED form)`, rule R172. -/
  | ldRpAtNn (rp : RegPair) (nn : Word)
  /-- `NEG (every y)`, rule R215. -/
  | neg (y : BitVec 3)
  /-- `RETN (every y but 1)`, rule R337. -/
  | retn (y : BitVec 3)
  /-- `RETI`, rule R338. -/
  | reti
  /-- `IM 0 (y = 0, 1, 4, 5)`, rule R334. -/
  | im0 (y : BitVec 3)
  /-- `IM 1 (y = 2, 6)`, rule R335. -/
  | im1 (y : BitVec 3)
  /-- `IM 2 (y = 3, 7)`, rule R336. -/
  | im2 (y : BitVec 3)
  /-- `LD I,A`, rule R177. -/
  | ldIA
  /-- `LD R,A`, rule R178. -/
  | ldRA
  /-- `LD A,I`, rule R179. -/
  | ldAI
  /-- `LD A,R`, rule R180. -/
  | ldAR
  /-- `RRD`, rule R266. -/
  | rrd
  /-- `RLD`, rule R265. -/
  | rld
  /-- `ED no-op 77`, rule R339. -/
  | nopED77
  /-- `ED no-op 7F`, rule R339. -/
  | nopED7F
  /-- `LDI`, rule R277. -/
  | ldi
  /-- `CPI`, rule R281. -/
  | cpi
  /-- `INI`, rule R285. -/
  | ini
  /-- `OUTI`, rule R289. -/
  | outi
  /-- `LDD`, rule R278. -/
  | ldd
  /-- `CPD`, rule R282. -/
  | cpd
  /-- `IND`, rule R286. -/
  | ind
  /-- `OUTD`, rule R290. -/
  | outd
  /-- `LDIR`, rule R279. -/
  | ldir
  /-- `CPIR`, rule R283. -/
  | cpir
  /-- `INIR`, rule R287. -/
  | inir
  /-- `OTIR`, rule R291. -/
  | otir
  /-- `LDDR`, rule R280. -/
  | lddr
  /-- `CPDR`, rule R284. -/
  | cpdr
  /-- `INDR`, rule R288. -/
  | indr
  /-- `OTDR`, rule R292. -/
  | otdr
  /-- `ED no-op 00 to 3F`, rule R339. -/
  | nopEDLow (x : BitVec 6)
  /-- `ED no-op C0 to FF`, rule R339. -/
  | nopEDHigh (x : BitVec 6)
  /-- `ED no-op 80 to BF, less the block instructions`, rule R339. -/
  | nopEDMid (x : BitVec 6)
  -- The DD and FD tables (rule R100): `xy` is the index register the first byte selects.
  /-- `ADD XY,pp`, rule R212. -/
  | addXYRp (xy : XY) (pp : IdxPair)
  /-- `LD XY,nn`, rule R186. -/
  | ldXYNn (xy : XY) (nn : Word)
  /-- `LD (nn),XY`, rule R188. -/
  | ldAtNnXY (xy : XY) (nn : Word)
  /-- `INC XY`, rule R240. -/
  | incXY (xy : XY)
  /-- `INC XYh/XYl`, rule R236. -/
  | incXYH (xy : XY) (h : Half)
  /-- `DEC XYh/XYl`, rule R237. -/
  | decXYH (xy : XY) (h : Half)
  /-- `LD XYh/XYl,n`, rule R182. -/
  | ldXYHN (xy : XY) (h : Half) (n : Byte)
  /-- `LD XY,(nn)`, rule R187. -/
  | ldXYAtNn (xy : XY) (nn : Word)
  /-- `DEC XY`, rule R241. -/
  | decXY (xy : XY)
  /-- `INC (XY+d)`, rule R234. -/
  | incAtXY (xy : XY) (d : Byte)
  /-- `DEC (XY+d)`, rule R235. -/
  | decAtXY (xy : XY) (d : Byte)
  /-- `LD (XY+d),n`, rule R185. -/
  | ldAtXYN (xy : XY) (d : Byte) (n : Byte)
  /-- `LD r,XYh/XYl (r not H, L)`, rule R181. -/
  | ldRXYH (xy : XY) (r : Reg8) (h : Half)
  /-- `LD XYh/XYl,r' (r' not H, L)`, rule R181. -/
  | ldXYHR (xy : XY) (h : Half) (s : Reg8)
  /-- `LD XYh/XYl,XYh/XYl`, rule R181. -/
  | ldXYHXYH (xy : XY) (h : Half) (k : Half)
  /-- `LD r,(XY+d)`, rule R183. -/
  | ldRAtXY (xy : XY) (r : Reg8) (d : Byte)
  /-- `LD (XY+d),r'`, rule R184. -/
  | ldAtXYR (xy : XY) (s : Reg8) (d : Byte)
  /-- `ADD A,XYh/XYl`, rule R201. -/
  | addAXYH (xy : XY) (h : Half)
  /-- `ADD A,(XY+d)`, rule R201. -/
  | addAAtXY (xy : XY) (d : Byte)
  /-- `ADC A,XYh/XYl`, rule R202. -/
  | adcAXYH (xy : XY) (h : Half)
  /-- `ADC A,(XY+d)`, rule R202. -/
  | adcAAtXY (xy : XY) (d : Byte)
  /-- `SUB XYh/XYl`, rule R203. -/
  | subXYH (xy : XY) (h : Half)
  /-- `SUB (XY+d)`, rule R203. -/
  | subAtXY (xy : XY) (d : Byte)
  /-- `SBC A,XYh/XYl`, rule R204. -/
  | sbcAXYH (xy : XY) (h : Half)
  /-- `SBC A,(XY+d)`, rule R204. -/
  | sbcAAtXY (xy : XY) (d : Byte)
  /-- `AND XYh/XYl`, rule R205. -/
  | andXYH (xy : XY) (h : Half)
  /-- `AND (XY+d)`, rule R205. -/
  | andAtXY (xy : XY) (d : Byte)
  /-- `XOR XYh/XYl`, rule R206. -/
  | xorXYH (xy : XY) (h : Half)
  /-- `XOR (XY+d)`, rule R206. -/
  | xorAtXY (xy : XY) (d : Byte)
  /-- `OR XYh/XYl`, rule R207. -/
  | orXYH (xy : XY) (h : Half)
  /-- `OR (XY+d)`, rule R207. -/
  | orAtXY (xy : XY) (d : Byte)
  /-- `CP XYh/XYl`, rule R208. -/
  | cpXYH (xy : XY) (h : Half)
  /-- `CP (XY+d)`, rule R208. -/
  | cpAtXY (xy : XY) (d : Byte)
  /-- `prefix DD/FD CB: selects the DDCB/FDCB table`, rule R96. -/
  | prefixXYCB (xy : XY)
  /-- `POP XY`, rule R191. -/
  | popXY (xy : XY)
  /-- `EX (SP),XY`, rule R324. -/
  | exSPXY (xy : XY)
  /-- `PUSH XY`, rule R190. -/
  | pushXY (xy : XY)
  /-- `JP (XY)`, rule R305. -/
  | jpXY (xy : XY)
  /-- `LD SP,XY`, rule R189. -/
  | ldSPXY (xy : XY)
  /-- `lone DD/FD prefix`, rule R340. -/
  | lonePrefix (xy : XY)
  -- The DDCB and FDCB tables (rule R101).
  /-- `RLC (XY+d)`, rule R250. -/
  | rlcAtXY (xy : XY) (d : Byte)
  /-- `RLC (XY+d),r'`, rules R250, R259. -/
  | rlcAtXYR (xy : XY) (d : Byte) (s : Reg8)
  /-- `RRC (XY+d)`, rule R251. -/
  | rrcAtXY (xy : XY) (d : Byte)
  /-- `RRC (XY+d),r'`, rules R251, R259. -/
  | rrcAtXYR (xy : XY) (d : Byte) (s : Reg8)
  /-- `RL (XY+d)`, rule R252. -/
  | rlAtXY (xy : XY) (d : Byte)
  /-- `RL (XY+d),r'`, rules R252, R259. -/
  | rlAtXYR (xy : XY) (d : Byte) (s : Reg8)
  /-- `RR (XY+d)`, rule R253. -/
  | rrAtXY (xy : XY) (d : Byte)
  /-- `RR (XY+d),r'`, rules R253, R259. -/
  | rrAtXYR (xy : XY) (d : Byte) (s : Reg8)
  /-- `SLA (XY+d)`, rule R254. -/
  | slaAtXY (xy : XY) (d : Byte)
  /-- `SLA (XY+d),r'`, rules R254, R259. -/
  | slaAtXYR (xy : XY) (d : Byte) (s : Reg8)
  /-- `SRA (XY+d)`, rule R255. -/
  | sraAtXY (xy : XY) (d : Byte)
  /-- `SRA (XY+d),r'`, rules R255, R259. -/
  | sraAtXYR (xy : XY) (d : Byte) (s : Reg8)
  /-- `SLL (XY+d)`, rule R256. -/
  | sllAtXY (xy : XY) (d : Byte)
  /-- `SLL (XY+d),r'`, rules R256, R259. -/
  | sllAtXYR (xy : XY) (d : Byte) (s : Reg8)
  /-- `SRL (XY+d)`, rule R257. -/
  | srlAtXY (xy : XY) (d : Byte)
  /-- `SRL (XY+d),r'`, rules R257, R259. -/
  | srlAtXYR (xy : XY) (d : Byte) (s : Reg8)
  /-- `BIT b,(XY+d) (z ignored)`, rule R262. -/
  | bitAtXY (xy : XY) (d : Byte) (b : BitVec 3) (z : BitVec 3)
  /-- `RES b,(XY+d)`, rule R263. -/
  | resAtXY (xy : XY) (d : Byte) (b : BitVec 3)
  /-- `RES b,(XY+d),r'`, rules R263, R259. -/
  | resAtXYR (xy : XY) (d : Byte) (b : BitVec 3) (s : Reg8)
  /-- `SET b,(XY+d)`, rule R264. -/
  | setAtXY (xy : XY) (d : Byte) (b : BitVec 3)
  /-- `SET b,(XY+d),r'`, rules R264, R259. -/
  | setAtXYR (xy : XY) (d : Byte) (b : BitVec 3) (s : Reg8)
  deriving DecidableEq, Repr

end Sys2Proof
end

