-- ==== Sys2Proof/WellFormed.lean ====
section
/-! DEFINITION. Which terms of `Instr` are instructions: the checks the operand types do not make themselves. A term
that fails a check is no row's instance; the decoder never gives one. -/

namespace Sys2Proof

/-- The four conditions `JR cc` has (rule R303; 90_conflicts.md C5). -/
def Cond.isJr : Cond → Bool
  | .nz | .z | .nc | .c => true
  | .po | .pe | .p | .m => false

/-- H or L: the registers the DD/FD half forms cannot name, since there H and L become XYh and XYl (rule R181). -/
def Reg8.isHL : Reg8 → Bool
  | .h | .l => true
  | .b | .c | .d | .e | .a => false

/-- Whether a term is a complete instruction.
* `JR cc` has four conditions (R303);
* the duplicates of RETN are every `y` but 1, which is RETI (R337, R338), and IM n is chosen by `y mod 4` (R334 to R336);
* the ED no-ops 80 to BF leave out the sixteen block instructions (R339);
* the half loads name no H and no L (R181);
* a prefix row encodes no complete instruction by itself (R12, R82). -/
def Instr.wf : Instr → Bool
  | .jrCc cc _ => cc.isJr
  | .retn y => y != 1
  | .im0 y => y.extractLsb' 1 1 == 0
  | .im1 y => y.extractLsb' 0 2 == 2
  | .im2 y => y.extractLsb' 0 2 == 3
  | .nopEDMid x => !(x.getLsbD 5 && !x.getLsbD 2)
  | .ldRXYH _ r _ => !r.isHL
  | .ldXYHR _ _ s => !s.isHL
  | .prefixCB | .prefixED | .prefixDD | .prefixFD | .prefixXYCB _ => false
  | .nop | .ldRpNn .. | .ldIndA .. | .incRp .. | .incR .. | .incAtHL | .decR .. | .decAtHL | .ldRN .. | .ldAtHLN ..
  | .rlca | .rrca | .rla | .rra | .daa | .cpl | .scf | .ccf | .exAfAf | .addHLRp .. | .ldAInd .. | .decRp ..
  | .djnz .. | .jr .. | .ldAtNnHL .. | .ldHLAtNn .. | .ldAtNnA .. | .ldAAtNn .. | .ldRR .. | .ldRAtHL ..
  | .ldAtHLR .. | .halt | .addAR .. | .addAAtHL | .addAN .. | .adcAR .. | .adcAAtHL | .adcAN .. | .subR .. | .subAtHL
  | .subN .. | .sbcAR .. | .sbcAAtHL | .sbcAN .. | .andR .. | .andAtHL | .andN .. | .xorR .. | .xorAtHL | .xorN ..
  | .orR .. | .orAtHL | .orN .. | .cpR .. | .cpAtHL | .cpN .. | .retCc .. | .popRp .. | .jpCcNn .. | .jpNn ..
  | .outNA .. | .inAN .. | .exSPHL | .exDEHL | .di | .ei | .callCcNn .. | .pushRp .. | .callNn .. | .rst .. | .ret
  | .exx | .jpHL | .ldSPHL | .rlcR .. | .rlcAtHL | .rrcR .. | .rrcAtHL | .rlR .. | .rlAtHL | .rrR .. | .rrAtHL
  | .slaR .. | .slaAtHL | .sraR .. | .sraAtHL | .sllR .. | .sllAtHL | .srlR .. | .srlAtHL | .bitR .. | .bitAtHL ..
  | .resR .. | .resAtHL .. | .setR .. | .setAtHL .. | .inRC .. | .inFC | .outCR .. | .outC0 | .sbcHLRp ..
  | .adcHLRp .. | .ldAtNnRp .. | .ldRpAtNn .. | .neg .. | .reti | .ldIA | .ldRA | .ldAI | .ldAR | .rrd | .rld
  | .nopED77 | .nopED7F | .ldi | .cpi | .ini | .outi | .ldd | .cpd | .ind | .outd | .ldir | .cpir | .inir | .otir
  | .lddr | .cpdr | .indr | .otdr | .nopEDLow .. | .nopEDHigh .. | .addXYRp .. | .ldXYNn .. | .ldAtNnXY ..
  | .incXY .. | .incXYH .. | .decXYH .. | .ldXYHN .. | .ldXYAtNn .. | .decXY .. | .incAtXY .. | .decAtXY ..
  | .ldAtXYN .. | .ldXYHXYH .. | .ldRAtXY .. | .ldAtXYR .. | .addAXYH .. | .addAAtXY .. | .adcAXYH .. | .adcAAtXY ..
  | .subXYH .. | .subAtXY .. | .sbcAXYH .. | .sbcAAtXY .. | .andXYH .. | .andAtXY .. | .xorXYH .. | .xorAtXY ..
  | .orXYH .. | .orAtXY .. | .cpXYH .. | .cpAtXY .. | .popXY .. | .exSPXY .. | .pushXY .. | .jpXY .. | .ldSPXY ..
  | .lonePrefix .. | .rlcAtXY .. | .rlcAtXYR .. | .rrcAtXY .. | .rrcAtXYR .. | .rlAtXY .. | .rlAtXYR .. | .rrAtXY ..
  | .rrAtXYR .. | .slaAtXY .. | .slaAtXYR .. | .sraAtXY .. | .sraAtXYR .. | .sllAtXY .. | .sllAtXYR .. | .srlAtXY ..
  | .srlAtXYR .. | .bitAtXY .. | .resAtXY .. | .resAtXYR .. | .setAtXY .. | .setAtXYR .. => true

end Sys2Proof
end

