-- ==== Sys2Proof/Decode.lean ====
section
/-! DEFINITION. The decoder, total on any bytes (rule R82), and after it the encoder, written from the same maps
(rules R80 to R101). `decode4` reads the instruction at four bytes, the longest an instruction has; `decode` reads one
from the front of a list of bytes and rejects by name a list that ends too soon. -/

namespace Sys2Proof

/-! ## Fields (rules R87, R91 to R93) -/

/-- `x = op[7:6]` (rule R87). -/
def fieldX (op : Byte) : BitVec 2 := op.extractLsb' 6 2

/-- `y = op[5:3]` (rule R87). -/
def fieldY (op : Byte) : BitVec 3 := op.extractLsb' 3 3

/-- `z = op[2:0]` (rule R87). -/
def fieldZ (op : Byte) : BitVec 3 := op.extractLsb' 0 3

/-- `p = op[5:4]` (rule R87). -/
def fieldP (op : Byte) : BitVec 2 := op.extractLsb' 4 2

/-- `q = op[3]` (rule R87). -/
def fieldQ (op : Byte) : Bool := op.getLsbD 3

/-- Rule R91; value 6 names no register. -/
def Reg8.ofCode (v : BitVec 3) : Option Reg8 :=
  match v with
  | 0#3 => some .b
  | 1#3 => some .c
  | 2#3 => some .d
  | 3#3 => some .e
  | 4#3 => some .h
  | 5#3 => some .l
  | 6#3 => none
  | _ => some .a

/-- Rule R92, `rp`. -/
def RegPair.ofCode (v : BitVec 2) : RegPair :=
  match v with
  | 0#2 => .bc
  | 1#2 => .de
  | 2#2 => .hl
  | _ => .sp

/-- Rule R92, `rp2`. -/
def StackPair.ofCode (v : BitVec 2) : StackPair :=
  match v with
  | 0#2 => .bc
  | 1#2 => .de
  | 2#2 => .hl
  | _ => .af

/-- Rules R92 and R212, `pp`. -/
def IdxPair.ofCode (v : BitVec 2) : IdxPair :=
  match v with
  | 0#2 => .bc
  | 1#2 => .de
  | 2#2 => .xy
  | _ => .sp

/-- Rules R165 and R166, `q`: bit 4 of the opcode. -/
def IndPair.ofBit (v : Bool) : IndPair := if v then .de else .bc

/-- Rule R93. -/
def Cond.ofCode (v : BitVec 3) : Cond :=
  match v with
  | 0#3 => .nz
  | 1#3 => .z
  | 2#3 => .nc
  | 3#3 => .c
  | 4#3 => .po
  | 5#3 => .pe
  | 6#3 => .p
  | _ => .m

/-- In a DD/FD form without an (XY+d) operand, register code 4 is XYh and 5 is XYl (rule R95). -/
def Half.ofCode (v : BitVec 3) : Option Half :=
  match v with
  | 4#3 => some .hi
  | 5#3 => some .lo
  | _ => none

/-! ## The accumulator operations of rule R200, by their field `ooo` -/

/-- `op A,r` (rule R200): 0 ADD, 1 ADC, 2 SUB, 3 SBC, 4 AND, 5 XOR, 6 OR, 7 CP. -/
def aluReg (o : BitVec 3) (s : Reg8) : Instr :=
  match o with
  | 0#3 => .addAR s
  | 1#3 => .adcAR s
  | 2#3 => .subR s
  | 3#3 => .sbcAR s
  | 4#3 => .andR s
  | 5#3 => .xorR s
  | 6#3 => .orR s
  | _ => .cpR s

/-- `op A,(HL)` (rule R200). -/
def aluAtHL (o : BitVec 3) : Instr :=
  match o with
  | 0#3 => .addAAtHL
  | 1#3 => .adcAAtHL
  | 2#3 => .subAtHL
  | 3#3 => .sbcAAtHL
  | 4#3 => .andAtHL
  | 5#3 => .xorAtHL
  | 6#3 => .orAtHL
  | _ => .cpAtHL

/-- `op A,n` (rule R200). -/
def aluImm (o : BitVec 3) (n : Byte) : Instr :=
  match o with
  | 0#3 => .addAN n
  | 1#3 => .adcAN n
  | 2#3 => .subN n
  | 3#3 => .sbcAN n
  | 4#3 => .andN n
  | 5#3 => .xorN n
  | 6#3 => .orN n
  | _ => .cpN n

/-- `op A,XYh/XYl` (rule R200). -/
def aluHalf (xy : XY) (o : BitVec 3) (h : Half) : Instr :=
  match o with
  | 0#3 => .addAXYH xy h
  | 1#3 => .adcAXYH xy h
  | 2#3 => .subXYH xy h
  | 3#3 => .sbcAXYH xy h
  | 4#3 => .andXYH xy h
  | 5#3 => .xorXYH xy h
  | 6#3 => .orXYH xy h
  | _ => .cpXYH xy h

/-- `op A,(XY+d)` (rule R200). -/
def aluAtXY (xy : XY) (o : BitVec 3) (d : Byte) : Instr :=
  match o with
  | 0#3 => .addAAtXY xy d
  | 1#3 => .adcAAtXY xy d
  | 2#3 => .subAtXY xy d
  | 3#3 => .sbcAAtXY xy d
  | 4#3 => .andAtXY xy d
  | 5#3 => .xorAtXY xy d
  | 6#3 => .orAtXY xy d
  | _ => .cpAtXY xy d

/-! ## The main table (rule R97) -/

/-- The quarter 00 to 3F of the main table. -/
def decodeMain0 (op b1 b2 : Byte) : Instr :=
  let y := fieldY op
  let rp := RegPair.ofCode (fieldP op)
  match fieldZ op with
  | 0#3 =>
    match y with
    | 0#3 => .nop
    | 1#3 => .exAfAf
    | 2#3 => .djnz b1
    | 3#3 => .jr b1
    | _ => .jrCc (Cond.ofCode (y - 4)) b1
  | 1#3 => if fieldQ op then .addHLRp rp else .ldRpNn rp (pair b2 b1)
  | 2#3 =>
    match y with
    | 4#3 => .ldAtNnHL (pair b2 b1)
    | 5#3 => .ldHLAtNn (pair b2 b1)
    | 6#3 => .ldAtNnA (pair b2 b1)
    | 7#3 => .ldAAtNn (pair b2 b1)
    | _ => if fieldQ op then .ldAInd (IndPair.ofBit (op.getLsbD 4)) else .ldIndA (IndPair.ofBit (op.getLsbD 4))
  | 3#3 => if fieldQ op then .decRp rp else .incRp rp
  | 4#3 =>
    match Reg8.ofCode y with
    | some r => .incR r
    | none => .incAtHL
  | 5#3 =>
    match Reg8.ofCode y with
    | some r => .decR r
    | none => .decAtHL
  | 6#3 =>
    match Reg8.ofCode y with
    | some r => .ldRN r b1
    | none => .ldAtHLN b1
  | _ =>
    match y with
    | 0#3 => .rlca
    | 1#3 => .rrca
    | 2#3 => .rla
    | 3#3 => .rra
    | 4#3 => .daa
    | 5#3 => .cpl
    | 6#3 => .scf
    | _ => .ccf

/-- The quarter 40 to 7F of the main table: the register loads, and HALT in the place of `LD (HL),(HL)`. -/
def decodeMain1 (op : Byte) : Instr :=
  match Reg8.ofCode (fieldY op), Reg8.ofCode (fieldZ op) with
  | some r, some s => .ldRR r s
  | some r, none => .ldRAtHL r
  | none, some s => .ldAtHLR s
  | none, none => .halt

/-- The quarter C0 to FF of the main table. Its four prefix bytes are dispatched by `decode4` before it is asked;
here they give their prefix row. -/
def decodeMain3 (op b1 b2 : Byte) : Instr :=
  let y := fieldY op
  match fieldZ op with
  | 0#3 => .retCc (Cond.ofCode y)
  | 1#3 =>
    if fieldQ op then
      match fieldP op with
      | 0#2 => .ret
      | 1#2 => .exx
      | 2#2 => .jpHL
      | _ => .ldSPHL
    else .popRp (StackPair.ofCode (fieldP op))
  | 2#3 => .jpCcNn (Cond.ofCode y) (pair b2 b1)
  | 3#3 =>
    match y with
    | 0#3 => .jpNn (pair b2 b1)
    | 1#3 => .prefixCB
    | 2#3 => .outNA b1
    | 3#3 => .inAN b1
    | 4#3 => .exSPHL
    | 5#3 => .exDEHL
    | 6#3 => .di
    | _ => .ei
  | 4#3 => .callCcNn (Cond.ofCode y) (pair b2 b1)
  | 5#3 =>
    if fieldQ op then
      match fieldP op with
      | 0#2 => .callNn (pair b2 b1)
      | 1#2 => .prefixDD
      | 2#2 => .prefixED
      | _ => .prefixFD
    else .pushRp (StackPair.ofCode (fieldP op))
  | 6#3 => aluImm y b1
  | _ => .rst y

/-- The main table (rule R97). -/
def decodeMain (op b1 b2 : Byte) : Instr :=
  match fieldX op with
  | 0#2 => decodeMain0 op b1 b2
  | 1#2 => decodeMain1 op
  | 2#2 =>
    match Reg8.ofCode (fieldZ op) with
    | some s => aluReg (fieldY op) s
    | none => aluAtHL (fieldY op)
  | _ => decodeMain3 op b1 b2

/-! ## The CB table (rule R98) -/

/-- A rotate or shift of a register; `y` is its kind (rule R133). -/
def rotReg (y : BitVec 3) (s : Reg8) : Instr :=
  match y with
  | 0#3 => .rlcR s
  | 1#3 => .rrcR s
  | 2#3 => .rlR s
  | 3#3 => .rrR s
  | 4#3 => .slaR s
  | 5#3 => .sraR s
  | 6#3 => .sllR s
  | _ => .srlR s

/-- A rotate or shift of (HL). -/
def rotAtHL (y : BitVec 3) : Instr :=
  match y with
  | 0#3 => .rlcAtHL
  | 1#3 => .rrcAtHL
  | 2#3 => .rlAtHL
  | 3#3 => .rrAtHL
  | 4#3 => .slaAtHL
  | 5#3 => .sraAtHL
  | 6#3 => .sllAtHL
  | _ => .srlAtHL

/-- The CB table (rule R98). -/
def decodeCB (op : Byte) : Instr :=
  let y := fieldY op
  match Reg8.ofCode (fieldZ op) with
  | some s =>
    match fieldX op with
    | 0#2 => rotReg y s
    | 1#2 => .bitR y s
    | 2#2 => .resR y s
    | _ => .setR y s
  | none =>
    match fieldX op with
    | 0#2 => rotAtHL y
    | 1#2 => .bitAtHL y
    | 2#2 => .resAtHL y
    | _ => .setAtHL y

/-! ## The ED table (rule R99) -/

/-- The quarter 40 to 7F of the ED table. -/
def decodeED1 (op b2 b3 : Byte) : Instr :=
  let y := fieldY op
  let rp := RegPair.ofCode (fieldP op)
  match fieldZ op with
  | 0#3 =>
    match Reg8.ofCode y with
    | some r => .inRC r
    | none => .inFC
  | 1#3 =>
    match Reg8.ofCode y with
    | some r => .outCR r
    | none => .outC0
  | 2#3 => if fieldQ op then .adcHLRp rp else .sbcHLRp rp
  | 3#3 => if fieldQ op then .ldRpAtNn rp (pair b3 b2) else .ldAtNnRp rp (pair b3 b2)
  | 4#3 => .neg y
  | 5#3 => if y == 1 then .reti else .retn y
  | 6#3 =>
    match y.extractLsb' 0 2 with
    | 2#2 => .im1 y
    | 3#2 => .im2 y
    | _ => .im0 y
  | _ =>
    match y with
    | 0#3 => .ldIA
    | 1#3 => .ldRA
    | 2#3 => .ldAI
    | 3#3 => .ldAR
    | 4#3 => .rrd
    | 5#3 => .rld
    | 6#3 => .nopED77
    | _ => .nopED7F

/-- The sixteen block instructions of the ED table; every other code 80 to BF is a no-op (rule R339). -/
def decodeED2 (op : Byte) : Instr :=
  match fieldY op, fieldZ op with
  | 4#3, 0#3 => .ldi
  | 4#3, 1#3 => .cpi
  | 4#3, 2#3 => .ini
  | 4#3, 3#3 => .outi
  | 5#3, 0#3 => .ldd
  | 5#3, 1#3 => .cpd
  | 5#3, 2#3 => .ind
  | 5#3, 3#3 => .outd
  | 6#3, 0#3 => .ldir
  | 6#3, 1#3 => .cpir
  | 6#3, 2#3 => .inir
  | 6#3, 3#3 => .otir
  | 7#3, 0#3 => .lddr
  | 7#3, 1#3 => .cpdr
  | 7#3, 2#3 => .indr
  | 7#3, 3#3 => .otdr
  | _, _ => .nopEDMid (op.extractLsb' 0 6)

/-- The ED table (rule R99). -/
def decodeED (op b2 b3 : Byte) : Instr :=
  match fieldX op with
  | 0#2 => .nopEDLow (op.extractLsb' 0 6)
  | 1#2 => decodeED1 op b2 b3
  | 2#2 => decodeED2 op
  | _ => .nopEDHigh (op.extractLsb' 0 6)

/-! ## The DD and FD tables and the DDCB and FDCB tables (rules R89, R90, R95, R96, R100 and R101) -/

/-- INDEX_SET, the 86 bytes that form an index instruction after DD or FD, as rule R89 lists them. -/
def indexSet : List Byte :=
  [0x09, 0x19, 0x21, 0x22, 0x23, 0x24, 0x25, 0x26, 0x29, 0x2A, 0x2B, 0x2C, 0x2D, 0x2E, 0x34, 0x35, 0x36, 0x39] ++
  [0x44, 0x45, 0x46, 0x4C, 0x4D, 0x4E, 0x54, 0x55, 0x56, 0x5C, 0x5D, 0x5E] ++
  [0x60, 0x61, 0x62, 0x63, 0x64, 0x65, 0x66, 0x67, 0x68, 0x69, 0x6A, 0x6B, 0x6C, 0x6D, 0x6E, 0x6F] ++
  [0x70, 0x71, 0x72, 0x73, 0x74, 0x75, 0x77, 0x7C, 0x7D, 0x7E] ++
  [0x84, 0x85, 0x86, 0x8C, 0x8D, 0x8E, 0x94, 0x95, 0x96, 0x9C, 0x9D, 0x9E] ++
  [0xA4, 0xA5, 0xA6, 0xAC, 0xAD, 0xAE, 0xB4, 0xB5, 0xB6, 0xBC, 0xBD, 0xBE] ++
  [0xCB, 0xE1, 0xE3, 0xE5, 0xE9, 0xF9]

/-- A DDCB/FDCB rotate or shift that writes memory only. -/
def rotAtXY (xy : XY) (d : Byte) (y : BitVec 3) : Instr :=
  match y with
  | 0#3 => .rlcAtXY xy d
  | 1#3 => .rrcAtXY xy d
  | 2#3 => .rlAtXY xy d
  | 3#3 => .rrAtXY xy d
  | 4#3 => .slaAtXY xy d
  | 5#3 => .sraAtXY xy d
  | 6#3 => .sllAtXY xy d
  | _ => .srlAtXY xy d

/-- A DDCB/FDCB rotate or shift with the register copy of rule R259. -/
def rotAtXYR (xy : XY) (d : Byte) (y : BitVec 3) (s : Reg8) : Instr :=
  match y with
  | 0#3 => .rlcAtXYR xy d s
  | 1#3 => .rrcAtXYR xy d s
  | 2#3 => .rlAtXYR xy d s
  | 3#3 => .rrAtXYR xy d s
  | 4#3 => .slaAtXYR xy d s
  | 5#3 => .sraAtXYR xy d s
  | 6#3 => .sllAtXYR xy d s
  | _ => .srlAtXYR xy d s

/-- The DDCB/FDCB table (rules R96 and R101): the operation byte is the fourth, after the displacement. -/
def decodeXYCB (xy : XY) (d op : Byte) : Instr :=
  let y := fieldY op
  match fieldX op with
  | 0#2 =>
    match Reg8.ofCode (fieldZ op) with
    | some s => rotAtXYR xy d y s
    | none => rotAtXY xy d y
  | 1#2 => .bitAtXY xy d y (fieldZ op)
  | 2#2 =>
    match Reg8.ofCode (fieldZ op) with
    | some s => .resAtXYR xy d y s
    | none => .resAtXY xy d y
  | _ =>
    match Reg8.ofCode (fieldZ op) with
    | some s => .setAtXYR xy d y s
    | none => .setAtXY xy d y

/-- The quarter 00 to 3F of the DD/FD table. -/
def decodeXY0 (xy : XY) (op b2 b3 : Byte) : Instr :=
  let y := fieldY op
  match fieldZ op with
  | 1#3 =>
    if fieldQ op then .addXYRp xy (IdxPair.ofCode (fieldP op))
    else if y == 4 then .ldXYNn xy (pair b3 b2) else .lonePrefix xy
  | 2#3 =>
    match y with
    | 4#3 => .ldAtNnXY xy (pair b3 b2)
    | 5#3 => .ldXYAtNn xy (pair b3 b2)
    | _ => .lonePrefix xy
  | 3#3 =>
    match y with
    | 4#3 => .incXY xy
    | 5#3 => .decXY xy
    | _ => .lonePrefix xy
  | 4#3 =>
    match y, Half.ofCode y with
    | 6#3, _ => .incAtXY xy b2
    | _, some h => .incXYH xy h
    | _, none => .lonePrefix xy
  | 5#3 =>
    match y, Half.ofCode y with
    | 6#3, _ => .decAtXY xy b2
    | _, some h => .decXYH xy h
    | _, none => .lonePrefix xy
  | 6#3 =>
    match y, Half.ofCode y with
    | 6#3, _ => .ldAtXYN xy b2 b3
    | _, some h => .ldXYHN xy h b2
    | _, none => .lonePrefix xy
  | _ => .lonePrefix xy

/-- The quarter 40 to 7F of the DD/FD table: with an (XY+d) operand H and L stay H and L, without one they are the
halves (rule R95). -/
def decodeXY1 (xy : XY) (op b2 : Byte) : Instr :=
  let y := fieldY op
  let z := fieldZ op
  match Reg8.ofCode y, Reg8.ofCode z with
  | none, none => .lonePrefix xy
  | some r, none => .ldRAtXY xy r b2
  | none, some s => .ldAtXYR xy s b2
  | some r, some s =>
    match Half.ofCode y, Half.ofCode z with
    | some h, some k => .ldXYHXYH xy h k
    | some h, none => .ldXYHR xy h s
    | none, some k => .ldRXYH xy r k
    | none, none => .lonePrefix xy

/-- The DD/FD table (rules R82, R90 and R100): a byte outside INDEX_SET leaves a lone prefix. -/
def decodeXY (xy : XY) (op b2 b3 : Byte) : Instr :=
  match fieldX op with
  | 0#2 => decodeXY0 xy op b2 b3
  | 1#2 => decodeXY1 xy op b2
  | 2#2 =>
    match fieldZ op, Half.ofCode (fieldZ op) with
    | 6#3, _ => aluAtXY xy (fieldY op) b2
    | _, some h => aluHalf xy (fieldY op) h
    | _, none => .lonePrefix xy
  | _ =>
    if op == 0xCB then decodeXYCB xy b2 b3
    else if op == 0xE1 then .popXY xy
    else if op == 0xE3 then .exSPXY xy
    else if op == 0xE5 then .pushXY xy
    else if op == 0xE9 then .jpXY xy
    else if op == 0xF9 then .ldSPXY xy
    else .lonePrefix xy

/-! ## The dispatch over prefix bytes (rule R82) -/

/-- The instruction that starts at the first of four bytes (rule R82). Bytes beyond its length are not looked at,
except that a lone prefix is one because of the byte after it (rule R90). -/
def decode4 (b0 b1 b2 b3 : Byte) : Instr :=
  if b0 == 0xCB then decodeCB b1
  else if b0 == 0xED then decodeED b1 b2 b3
  else if b0 == 0xDD then decodeXY .ix b1 b2 b3
  else if b0 == 0xFD then decodeXY .iy b1 b2 b3
  else decodeMain b0 b1 b2

/-- The length in bytes: the `length` column of opcode_table.json (rule R80); for the prefix rows, their own bytes. -/
def Instr.length : Instr → Nat
  | .nop | .ldIndA .. | .incRp .. | .incR .. | .incAtHL | .decR .. | .decAtHL | .rlca | .rrca | .rla | .rra | .daa
  | .cpl | .scf | .ccf | .exAfAf | .addHLRp .. | .ldAInd .. | .decRp .. | .ldRR .. | .ldRAtHL .. | .ldAtHLR ..
  | .halt | .addAR .. | .addAAtHL | .adcAR .. | .adcAAtHL | .subR .. | .subAtHL | .sbcAR .. | .sbcAAtHL | .andR ..
  | .andAtHL | .xorR .. | .xorAtHL | .orR .. | .orAtHL | .cpR .. | .cpAtHL | .retCc .. | .popRp .. | .exSPHL
  | .exDEHL | .di | .ei | .pushRp .. | .rst .. | .ret | .exx | .jpHL | .ldSPHL | .prefixCB | .prefixED | .prefixDD
  | .prefixFD | .lonePrefix .. => 1
  | .ldRN .. | .ldAtHLN .. | .djnz .. | .jr .. | .jrCc .. | .addAN .. | .adcAN .. | .subN .. | .sbcAN .. | .andN ..
  | .xorN .. | .orN .. | .cpN .. | .outNA .. | .inAN .. | .rlcR .. | .rlcAtHL | .rrcR .. | .rrcAtHL | .rlR ..
  | .rlAtHL | .rrR .. | .rrAtHL | .slaR .. | .slaAtHL | .sraR .. | .sraAtHL | .sllR .. | .sllAtHL | .srlR ..
  | .srlAtHL | .bitR .. | .bitAtHL .. | .resR .. | .resAtHL .. | .setR .. | .setAtHL .. | .inRC .. | .inFC
  | .outCR .. | .outC0 | .sbcHLRp .. | .adcHLRp .. | .neg .. | .retn .. | .reti | .im0 .. | .im1 .. | .im2 .. | .ldIA
  | .ldRA | .ldAI | .ldAR | .rrd | .rld | .nopED77 | .nopED7F | .ldi | .cpi | .ini | .outi | .ldd | .cpd | .ind
  | .outd | .ldir | .cpir | .inir | .otir | .lddr | .cpdr | .indr | .otdr | .nopEDLow .. | .nopEDHigh ..
  | .nopEDMid .. | .addXYRp .. | .incXY .. | .incXYH .. | .decXYH .. | .decXY .. | .ldRXYH .. | .ldXYHR ..
  | .ldXYHXYH .. | .addAXYH .. | .adcAXYH .. | .subXYH .. | .sbcAXYH .. | .andXYH .. | .xorXYH .. | .orXYH ..
  | .cpXYH .. | .prefixXYCB .. | .popXY .. | .exSPXY .. | .pushXY .. | .jpXY .. | .ldSPXY .. => 2
  | .ldRpNn .. | .ldAtNnHL .. | .ldHLAtNn .. | .ldAtNnA .. | .ldAAtNn .. | .jpCcNn .. | .jpNn .. | .callCcNn ..
  | .callNn .. | .ldXYHN .. | .incAtXY .. | .decAtXY .. | .ldRAtXY .. | .ldAtXYR .. | .addAAtXY .. | .adcAAtXY ..
  | .subAtXY .. | .sbcAAtXY .. | .andAtXY .. | .xorAtXY .. | .orAtXY .. | .cpAtXY .. => 3
  | .ldAtNnRp .. | .ldRpAtNn .. | .ldXYNn .. | .ldAtNnXY .. | .ldXYAtNn .. | .ldAtXYN .. | .rlcAtXY .. | .rlcAtXYR ..
  | .rrcAtXY .. | .rrcAtXYR .. | .rlAtXY .. | .rlAtXYR .. | .rrAtXY .. | .rrAtXYR .. | .slaAtXY .. | .slaAtXYR ..
  | .sraAtXY .. | .sraAtXYR .. | .sllAtXY .. | .sllAtXYR .. | .srlAtXY .. | .srlAtXYR .. | .bitAtXY .. | .resAtXY ..
  | .resAtXYR .. | .setAtXY .. | .setAtXYR .. => 4

/-- Why a list of bytes gives no instruction. The machine's fetch always supplies four bytes, so no step meets it. -/
inductive DecodeReject where
  /-- The list ends inside an instruction, or right after a DD or FD whose next byte decides what it is (rule R90). -/
  | truncated
  deriving DecidableEq, Repr

/-- Whether a byte selects the DD/FD table, so that the byte after it must be known (rule R90). -/
def isXYPrefix (b : Byte) : Bool := b == 0xDD || b == 0xFD

/-- One instruction from the front of a list of bytes, with the bytes after it; a list too short to hold one is
rejected by name. Every long enough list decodes (rule R82). -/
def decode (bs : List Byte) : Except DecodeReject (Instr × List Byte) :=
  match bs with
  | [] => .error .truncated
  | b0 :: rest =>
    if isXYPrefix b0 && rest.isEmpty then .error .truncated
    else
      let i := decode4 b0 (rest.getD 0 0) (rest.getD 1 0) (rest.getD 2 0)
      if i.length ≤ bs.length then .ok (i, bs.drop i.length) else .error .truncated

/-- The four bytes of an instruction that `nbits` and `w` give as opcode_table.json numbers its bits: one number with the
FIRST byte most significant (log 8), and zeros after the row's last byte. -/
def tableBytes (nbits w : Nat) : List Byte :=
  ((List.range (nbits / 8)).map fun k => BitVec.ofNat 8 (w >>> (nbits - 8 * (k + 1)))) ++ List.replicate (4 - nbits / 8) 0

/-- The instruction the decoder reads from a word of spec/opcode_table.json: 8, 16, 24 or 32 bits numbered as the table
numbers them. -/
def decodeTableWord (nbits w : Nat) : Option Instr :=
  match tableBytes nbits w with
  | [b0, b1, b2, b3] => some (decode4 b0 b1 b2 b3)
  | _ => none

/-! ## The encoder -/

/-- An opcode byte from its fields x, y, z (rule R87). -/
def opXYZ (x : BitVec 2) (y z : BitVec 3) : Byte := x ++ y ++ z

/-- An opcode byte from its fields x, p, q, z (rule R87). -/
def opXPQZ (x p : BitVec 2) (q : BitVec 1) (z : BitVec 3) : Byte := x ++ p ++ q ++ z

/-- Rule R91. -/
def Reg8.code : Reg8 → BitVec 3
  | .b => 0
  | .c => 1
  | .d => 2
  | .e => 3
  | .h => 4
  | .l => 5
  | .a => 7

/-- Rule R92, `rp`. -/
def RegPair.code : RegPair → BitVec 2
  | .bc => 0
  | .de => 1
  | .hl => 2
  | .sp => 3

/-- Rule R92, `rp2`. -/
def StackPair.code : StackPair → BitVec 2
  | .bc => 0
  | .de => 1
  | .hl => 2
  | .af => 3

/-- Rules R92 and R212, `pp`. -/
def IdxPair.code : IdxPair → BitVec 2
  | .bc => 0
  | .de => 1
  | .xy => 2
  | .sp => 3

/-- Rules R165 and R166, `q`. -/
def IndPair.code : IndPair → BitVec 1
  | .bc => 0
  | .de => 1

/-- Rule R93. -/
def Cond.code : Cond → BitVec 3
  | .nz => 0
  | .z => 1
  | .nc => 2
  | .c => 3
  | .po => 4
  | .pe => 5
  | .p => 6
  | .m => 7

/-- The prefix byte of an index register (rule R80). -/
def XY.code : XY → Byte
  | .ix => 0xDD
  | .iy => 0xFD

/-- The register field value that stands for an index half (rule R95). -/
def Half.regCode : Half → BitVec 3
  | .hi => 4
  | .lo => 5

/-- The bytes of an instruction, from the encoding column of opcode_table.json (rules R80, R87 and R97 to R101). -/
def encode : Instr → List Byte
  | .nop => [0x00]
  | .ldRpNn rp nn => [opXPQZ 0 rp.code 0 1, loByte nn, hiByte nn]
  | .ldIndA q => [opXYZ 0 (0#1 ++ q.code ++ 0#1) 2]
  | .incRp rp => [opXPQZ 0 rp.code 0 3]
  | .incR r => [opXYZ 0 r.code 4]
  | .incAtHL => [0x34]
  | .decR r => [opXYZ 0 r.code 5]
  | .decAtHL => [0x35]
  | .ldRN r n => [opXYZ 0 r.code 6, n]
  | .ldAtHLN n => [0x36, n]
  | .rlca => [0x07]
  | .rrca => [0x0F]
  | .rla => [0x17]
  | .rra => [0x1F]
  | .daa => [0x27]
  | .cpl => [0x2F]
  | .scf => [0x37]
  | .ccf => [0x3F]
  | .exAfAf => [0x08]
  | .addHLRp rp => [opXPQZ 0 rp.code 1 1]
  | .ldAInd q => [opXYZ 0 (0#1 ++ q.code ++ 1#1) 2]
  | .decRp rp => [opXPQZ 0 rp.code 1 3]
  | .djnz e => [0x10, e]
  | .jr e => [0x18, e]
  | .jrCc cc e => [opXYZ 0 (1#1 ++ cc.code.extractLsb' 0 2) 0, e]
  | .ldAtNnHL nn => [0x22, loByte nn, hiByte nn]
  | .ldHLAtNn nn => [0x2A, loByte nn, hiByte nn]
  | .ldAtNnA nn => [0x32, loByte nn, hiByte nn]
  | .ldAAtNn nn => [0x3A, loByte nn, hiByte nn]
  | .ldRR r s => [opXYZ 1 r.code s.code]
  | .ldRAtHL r => [opXYZ 1 r.code 6]
  | .ldAtHLR s => [opXYZ 1 6 s.code]
  | .halt => [0x76]
  | .addAR s => [opXYZ 2 0 s.code]
  | .addAAtHL => [opXYZ 2 0 6]
  | .addAN n => [opXYZ 3 0 6, n]
  | .adcAR s => [opXYZ 2 1 s.code]
  | .adcAAtHL => [opXYZ 2 1 6]
  | .adcAN n => [opXYZ 3 1 6, n]
  | .subR s => [opXYZ 2 2 s.code]
  | .subAtHL => [opXYZ 2 2 6]
  | .subN n => [opXYZ 3 2 6, n]
  | .sbcAR s => [opXYZ 2 3 s.code]
  | .sbcAAtHL => [opXYZ 2 3 6]
  | .sbcAN n => [opXYZ 3 3 6, n]
  | .andR s => [opXYZ 2 4 s.code]
  | .andAtHL => [opXYZ 2 4 6]
  | .andN n => [opXYZ 3 4 6, n]
  | .xorR s => [opXYZ 2 5 s.code]
  | .xorAtHL => [opXYZ 2 5 6]
  | .xorN n => [opXYZ 3 5 6, n]
  | .orR s => [opXYZ 2 6 s.code]
  | .orAtHL => [opXYZ 2 6 6]
  | .orN n => [opXYZ 3 6 6, n]
  | .cpR s => [opXYZ 2 7 s.code]
  | .cpAtHL => [opXYZ 2 7 6]
  | .cpN n => [opXYZ 3 7 6, n]
  | .retCc cc => [opXYZ 3 cc.code 0]
  | .popRp rp => [opXPQZ 3 rp.code 0 1]
  | .jpCcNn cc nn => [opXYZ 3 cc.code 2, loByte nn, hiByte nn]
  | .jpNn nn => [0xC3, loByte nn, hiByte nn]
  | .outNA n => [0xD3, n]
  | .inAN n => [0xDB, n]
  | .exSPHL => [0xE3]
  | .exDEHL => [0xEB]
  | .di => [0xF3]
  | .ei => [0xFB]
  | .callCcNn cc nn => [opXYZ 3 cc.code 4, loByte nn, hiByte nn]
  | .pushRp rp => [opXPQZ 3 rp.code 0 5]
  | .callNn nn => [0xCD, loByte nn, hiByte nn]
  | .rst p => [opXYZ 3 p 7]
  | .ret => [0xC9]
  | .exx => [0xD9]
  | .jpHL => [0xE9]
  | .ldSPHL => [0xF9]
  | .prefixCB => [0xCB]
  | .prefixED => [0xED]
  | .prefixDD => [0xDD]
  | .prefixFD => [0xFD]
  | .rlcR s => [0xCB, opXYZ 0 0 s.code]
  | .rlcAtHL => [0xCB, opXYZ 0 0 6]
  | .rrcR s => [0xCB, opXYZ 0 1 s.code]
  | .rrcAtHL => [0xCB, opXYZ 0 1 6]
  | .rlR s => [0xCB, opXYZ 0 2 s.code]
  | .rlAtHL => [0xCB, opXYZ 0 2 6]
  | .rrR s => [0xCB, opXYZ 0 3 s.code]
  | .rrAtHL => [0xCB, opXYZ 0 3 6]
  | .slaR s => [0xCB, opXYZ 0 4 s.code]
  | .slaAtHL => [0xCB, opXYZ 0 4 6]
  | .sraR s => [0xCB, opXYZ 0 5 s.code]
  | .sraAtHL => [0xCB, opXYZ 0 5 6]
  | .sllR s => [0xCB, opXYZ 0 6 s.code]
  | .sllAtHL => [0xCB, opXYZ 0 6 6]
  | .srlR s => [0xCB, opXYZ 0 7 s.code]
  | .srlAtHL => [0xCB, opXYZ 0 7 6]
  | .bitR b s => [0xCB, opXYZ 1 b s.code]
  | .bitAtHL b => [0xCB, opXYZ 1 b 6]
  | .resR b s => [0xCB, opXYZ 2 b s.code]
  | .resAtHL b => [0xCB, opXYZ 2 b 6]
  | .setR b s => [0xCB, opXYZ 3 b s.code]
  | .setAtHL b => [0xCB, opXYZ 3 b 6]
  | .inRC r => [0xED, opXYZ 1 r.code 0]
  | .inFC => [0xED, 0x70]
  | .outCR r => [0xED, opXYZ 1 r.code 1]
  | .outC0 => [0xED, 0x71]
  | .sbcHLRp rp => [0xED, opXPQZ 1 rp.code 0 2]
  | .adcHLRp rp => [0xED, opXPQZ 1 rp.code 1 2]
  | .ldAtNnRp rp nn => [0xED, opXPQZ 1 rp.code 0 3, loByte nn, hiByte nn]
  | .ldRpAtNn rp nn => [0xED, opXPQZ 1 rp.code 1 3, loByte nn, hiByte nn]
  | .neg y => [0xED, opXYZ 1 y 4]
  | .retn y => [0xED, opXYZ 1 y 5]
  | .reti => [0xED, 0x4D]
  | .im0 y => [0xED, opXYZ 1 y 6]
  | .im1 y => [0xED, opXYZ 1 y 6]
  | .im2 y => [0xED, opXYZ 1 y 6]
  | .ldIA => [0xED, 0x47]
  | .ldRA => [0xED, 0x4F]
  | .ldAI => [0xED, 0x57]
  | .ldAR => [0xED, 0x5F]
  | .rrd => [0xED, 0x67]
  | .rld => [0xED, 0x6F]
  | .nopED77 => [0xED, 0x77]
  | .nopED7F => [0xED, 0x7F]
  | .ldi => [0xED, 0xA0]
  | .cpi => [0xED, 0xA1]
  | .ini => [0xED, 0xA2]
  | .outi => [0xED, 0xA3]
  | .ldd => [0xED, 0xA8]
  | .cpd => [0xED, 0xA9]
  | .ind => [0xED, 0xAA]
  | .outd => [0xED, 0xAB]
  | .ldir => [0xED, 0xB0]
  | .cpir => [0xED, 0xB1]
  | .inir => [0xED, 0xB2]
  | .otir => [0xED, 0xB3]
  | .lddr => [0xED, 0xB8]
  | .cpdr => [0xED, 0xB9]
  | .indr => [0xED, 0xBA]
  | .otdr => [0xED, 0xBB]
  | .nopEDLow x => [0xED, (0#2 ++ x : Byte)]
  | .nopEDHigh x => [0xED, (3#2 ++ x : Byte)]
  | .nopEDMid x => [0xED, (2#2 ++ x : Byte)]
  | .addXYRp xy pp => [xy.code, opXPQZ 0 pp.code 1 1]
  | .ldXYNn xy nn => [xy.code, 0x21, loByte nn, hiByte nn]
  | .ldAtNnXY xy nn => [xy.code, 0x22, loByte nn, hiByte nn]
  | .incXY xy => [xy.code, 0x23]
  | .incXYH xy h => [xy.code, opXYZ 0 h.regCode 4]
  | .decXYH xy h => [xy.code, opXYZ 0 h.regCode 5]
  | .ldXYHN xy h n => [xy.code, opXYZ 0 h.regCode 6, n]
  | .ldXYAtNn xy nn => [xy.code, 0x2A, loByte nn, hiByte nn]
  | .decXY xy => [xy.code, 0x2B]
  | .incAtXY xy d => [xy.code, 0x34, d]
  | .decAtXY xy d => [xy.code, 0x35, d]
  | .ldAtXYN xy d n => [xy.code, 0x36, d, n]
  | .ldRXYH xy r h => [xy.code, opXYZ 1 r.code h.regCode]
  | .ldXYHR xy h s => [xy.code, opXYZ 1 h.regCode s.code]
  | .ldXYHXYH xy h k => [xy.code, opXYZ 1 h.regCode k.regCode]
  | .ldRAtXY xy r d => [xy.code, opXYZ 1 r.code 6, d]
  | .ldAtXYR xy s d => [xy.code, opXYZ 1 6 s.code, d]
  | .addAXYH xy h => [xy.code, opXYZ 2 0 h.regCode]
  | .addAAtXY xy d => [xy.code, opXYZ 2 0 6, d]
  | .adcAXYH xy h => [xy.code, opXYZ 2 1 h.regCode]
  | .adcAAtXY xy d => [xy.code, opXYZ 2 1 6, d]
  | .subXYH xy h => [xy.code, opXYZ 2 2 h.regCode]
  | .subAtXY xy d => [xy.code, opXYZ 2 2 6, d]
  | .sbcAXYH xy h => [xy.code, opXYZ 2 3 h.regCode]
  | .sbcAAtXY xy d => [xy.code, opXYZ 2 3 6, d]
  | .andXYH xy h => [xy.code, opXYZ 2 4 h.regCode]
  | .andAtXY xy d => [xy.code, opXYZ 2 4 6, d]
  | .xorXYH xy h => [xy.code, opXYZ 2 5 h.regCode]
  | .xorAtXY xy d => [xy.code, opXYZ 2 5 6, d]
  | .orXYH xy h => [xy.code, opXYZ 2 6 h.regCode]
  | .orAtXY xy d => [xy.code, opXYZ 2 6 6, d]
  | .cpXYH xy h => [xy.code, opXYZ 2 7 h.regCode]
  | .cpAtXY xy d => [xy.code, opXYZ 2 7 6, d]
  | .prefixXYCB xy => [xy.code, 0xCB]
  | .popXY xy => [xy.code, 0xE1]
  | .exSPXY xy => [xy.code, 0xE3]
  | .pushXY xy => [xy.code, 0xE5]
  | .jpXY xy => [xy.code, 0xE9]
  | .ldSPXY xy => [xy.code, 0xF9]
  | .lonePrefix xy => [xy.code]
  | .rlcAtXY xy d => [xy.code, 0xCB, d, opXYZ 0 0 6]
  | .rlcAtXYR xy d s => [xy.code, 0xCB, d, opXYZ 0 0 s.code]
  | .rrcAtXY xy d => [xy.code, 0xCB, d, opXYZ 0 1 6]
  | .rrcAtXYR xy d s => [xy.code, 0xCB, d, opXYZ 0 1 s.code]
  | .rlAtXY xy d => [xy.code, 0xCB, d, opXYZ 0 2 6]
  | .rlAtXYR xy d s => [xy.code, 0xCB, d, opXYZ 0 2 s.code]
  | .rrAtXY xy d => [xy.code, 0xCB, d, opXYZ 0 3 6]
  | .rrAtXYR xy d s => [xy.code, 0xCB, d, opXYZ 0 3 s.code]
  | .slaAtXY xy d => [xy.code, 0xCB, d, opXYZ 0 4 6]
  | .slaAtXYR xy d s => [xy.code, 0xCB, d, opXYZ 0 4 s.code]
  | .sraAtXY xy d => [xy.code, 0xCB, d, opXYZ 0 5 6]
  | .sraAtXYR xy d s => [xy.code, 0xCB, d, opXYZ 0 5 s.code]
  | .sllAtXY xy d => [xy.code, 0xCB, d, opXYZ 0 6 6]
  | .sllAtXYR xy d s => [xy.code, 0xCB, d, opXYZ 0 6 s.code]
  | .srlAtXY xy d => [xy.code, 0xCB, d, opXYZ 0 7 6]
  | .srlAtXYR xy d s => [xy.code, 0xCB, d, opXYZ 0 7 s.code]
  | .bitAtXY xy d b z => [xy.code, 0xCB, d, opXYZ 1 b z]
  | .resAtXY xy d b => [xy.code, 0xCB, d, opXYZ 2 b 6]
  | .resAtXYR xy d b s => [xy.code, 0xCB, d, opXYZ 2 b s.code]
  | .setAtXY xy d b => [xy.code, 0xCB, d, opXYZ 3 b 6]
  | .setAtXYR xy d b s => [xy.code, 0xCB, d, opXYZ 3 b s.code]

end Sys2Proof
end

