-- ==== Sys2Proof/Machine/Flags.lean ====
section
/-! DEFINITION. The flag/result functions of 40_flag_tables.md, one for each rule R121 to R150. "A model may compute the
functions of this file directly instead of tabulating them" (R120). A function that has a result answers
`(result, F')`, F' being the whole new flag byte; exact sums are taken in `Nat` and `Int` and narrowed at the end. -/

namespace Sys2Proof.Machine

/-! ## The flag byte (rule R24) -/

/-- F.S -/
def flagS (f : Byte) : Bool := f.getLsbD 7

/-- F.Z -/
def flagZ (f : Byte) : Bool := f.getLsbD 6

/-- F.H -/
def flagH (f : Byte) : Bool := f.getLsbD 4

/-- F.PV -/
def flagPV (f : Byte) : Bool := f.getLsbD 2

/-- F.N -/
def flagN (f : Byte) : Bool := f.getLsbD 1

/-- F.C -/
def flagC (f : Byte) : Bool := f.getLsbD 0

/-! ## Helpers (rules R121 to R123) -/

/-- `SZ53(v)`: S = v[7], Z = (v = 0), 5 = v[5], 3 = v[3] (rule R121). -/
def sz53 (v : Byte) : Byte := (v &&& 0xA8) ||| flagAt 6 (v == 0)

/-- The number of 1 bits of a byte. -/
def ones (v : Byte) : Nat :=
  (v.getLsbD 0).toNat + (v.getLsbD 1).toNat + (v.getLsbD 2).toNat + (v.getLsbD 3).toNat +
    (v.getLsbD 4).toNat + (v.getLsbD 5).toNat + (v.getLsbD 6).toNat + (v.getLsbD 7).toNat

/-- `PAR(v)`: whether v has an even number of 1 bits (rule R121). -/
def par (v : Byte) : Bool := ones v % 2 == 0

/-- `SZ53P(v)`: SZ53 with P/V = parity (rule R121). -/
def sz53p (v : Byte) : Byte := sz53 v ||| flagAt 2 (par v)

/-- `HADD(a, b, c)`: carry out of bit 3 of a + b + c (rule R122). -/
def hadd (a b : Byte) (c : Bool) : Bool := decide (a.toNat % 16 + b.toNat % 16 + c.toNat > 15)

/-- `HSUB(a, b, c)`: borrow into bit 4 of a - b - c (rule R122). -/
def hsub (a b : Byte) (c : Bool) : Bool := decide (a.toNat % 16 < b.toNat % 16 + c.toNat)

/-- `HADD16(x, y, c)`: carry out of bit 11 (rule R122). -/
def hadd16 (x y : Word) (c : Bool) : Bool := decide (x.toNat % 4096 + y.toNat % 4096 + c.toNat > 4095)

/-- `HSUB16(x, y, c)`: borrow into bit 12 (rule R122). -/
def hsub16 (x y : Word) (c : Bool) : Bool := decide (x.toNat % 4096 < y.toNat % 4096 + c.toNat)

/-- `VADD`: two's-complement overflow of a sum r of a and b (rule R123). -/
def vadd {w : Nat} (a b r : BitVec w) : Bool := (a.msb == b.msb) && (r.msb != a.msb)

/-- `VSUB`: two's-complement overflow of a difference r of a and b (rule R123). -/
def vsub {w : Nat} (a b r : BitVec w) : Bool := (a.msb != b.msb) && (r.msb != a.msb)

/-! ## 8-bit arithmetic and logic (rules R124 to R132) -/

/-- `ADD8(a, b, c)` (rule R124). -/
def add8 (a b : Byte) (c : Bool) : Byte × Byte :=
  let s : Nat := a.toNat + b.toNat + c.toNat
  let r : Byte := BitVec.ofNat 8 s
  (r, sz53 r ||| flagAt 4 (hadd a b c) ||| flagAt 2 (vadd a b r) ||| flagAt 0 (decide (s > 255)))

/-- `SUB8(a, b, c)` (rule R125). -/
def sub8 (a b : Byte) (c : Bool) : Byte × Byte :=
  let s : Int := (a.toNat : Int) - b.toNat - c.toNat
  let r : Byte := BitVec.ofInt 8 s
  (r, sz53 r ||| flagAt 4 (hsub a b c) ||| flagAt 2 (vsub a b r) ||| flagAt 1 true ||| flagAt 0 (decide (s < 0)))

/-- `CP8(a, b)`: the flags of SUB8 with bits 5 and 3 of the operand (rule R126). -/
def cp8 (a b : Byte) : Byte := ((sub8 a b false).2 &&& 0xD7) ||| (b &&& 0x28)

/-- `AND8(a, b)` (rule R127). -/
def and8 (a b : Byte) : Byte × Byte := (a &&& b, sz53p (a &&& b) ||| 0x10)

/-- `XOR8(a, b)` (rule R128). -/
def xor8 (a b : Byte) : Byte × Byte := (a ^^^ b, sz53p (a ^^^ b))

/-- `OR8(a, b)` (rule R129). -/
def or8 (a b : Byte) : Byte × Byte := (a ||| b, sz53p (a ||| b))

/-- `INC8(v, f)` (rule R131). -/
def inc8 (v f : Byte) : Byte × Byte :=
  let r := v + 1
  (r, sz53 r ||| flagAt 4 (v &&& 0x0F == 0x0F) ||| flagAt 2 (v == 0x7F) ||| flagAt 0 (flagC f))

/-- `DEC8(v, f)` (rule R132). -/
def dec8 (v f : Byte) : Byte × Byte :=
  let r := v - 1
  (r, sz53 r ||| flagAt 4 (v &&& 0x0F == 0) ||| flagAt 2 (v == 0x80) ||| flagAt 1 true ||| flagAt 0 (flagC f))

/-! ## Rotates and shifts (rules R133 and R134) -/

/-- The eight kinds of rule R133, in the order of its `k`. -/
inductive RotKind where
  | rlc | rrc | rl | rr | sla | sra | sll | srl
  deriving DecidableEq, Repr

/-- The result of a rotate or shift (rule R133). -/
def rotResult (k : RotKind) (v : Byte) (c : Bool) : Byte :=
  match k with
  | .rlc => (v <<< 1) ||| flagAt 0 (v.getLsbD 7)
  | .rrc => (v >>> 1) ||| flagAt 7 (v.getLsbD 0)
  | .rl => (v <<< 1) ||| flagAt 0 c
  | .rr => (v >>> 1) ||| flagAt 7 c
  | .sla => v <<< 1
  | .sra => (v >>> 1) ||| (v &&& 0x80)
  | .sll => (v <<< 1) ||| 1
  | .srl => v >>> 1

/-- The carry out of a rotate or shift: the bit that leaves the byte (rule R133). -/
def rotCarry (k : RotKind) (v : Byte) : Bool :=
  match k with
  | .rlc | .rl | .sla | .sll => v.getLsbD 7
  | .rrc | .rr | .sra | .srl => v.getLsbD 0

/-- `ROT(k, v, c)` (rule R133). -/
def rot (k : RotKind) (v : Byte) (c : Bool) : Byte × Byte :=
  let r := rotResult k v c
  (r, sz53p r ||| flagAt 0 (rotCarry k v))

/-- `ROTA(k, a, f)`, the accumulator rotates (rule R134). -/
def rota (k : RotKind) (a f : Byte) : Byte × Byte :=
  let r := rotResult k a (flagC f)
  (r, (f &&& 0xC4) ||| (r &&& 0x28) ||| flagAt 0 (rotCarry k a))

/-! ## Bit test (rule R136) -/

/-- `BITF(b, v, src53, f)` (rule R136). -/
def bitF (b : BitVec 3) (v src53 f : Byte) : Byte :=
  let z := !v.getLsbD b.toNat
  flagAt 7 (b == 7 && v.getLsbD 7) ||| flagAt 6 z ||| (src53 &&& 0x28) ||| flagAt 4 true ||| flagAt 2 z |||
    flagAt 0 (flagC f)

/-! ## Accumulator adjustments (rules R137 to R141) -/

/-- `DAA(a, f)` (rule R137). -/
def daa (a f : Byte) : Byte × Byte :=
  let low := a.toNat % 16
  let cout := flagC f || decide (a.toNat > 0x99)
  let diff : Byte := (if flagH f || decide (low > 9) then 0x06 else 0) ||| (if cout then 0x60 else 0)
  let r := if flagN f then a - diff else a + diff
  let hout := if flagN f then flagH f && decide (low < 6) else decide (low > 9)
  (r, sz53p r ||| flagAt 4 hout ||| flagAt 1 (flagN f) ||| flagAt 0 cout)

/-- `NEG(a)` = SUB8(0, a, 0) (rule R138). -/
def neg8 (a : Byte) : Byte × Byte := sub8 0 a false

/-- `CPL(a, f)` (rule R139). -/
def cpl (a f : Byte) : Byte × Byte :=
  let r := a ^^^ 0xFF
  (r, (f &&& 0xC5) ||| (r &&& 0x28) ||| 0x10 ||| 0x02)

/-- `SCF(a, f)` (rule R140). -/
def scf (a f : Byte) : Byte := (f &&& 0xC4) ||| (a &&& 0x28) ||| 0x01

/-- `CCF(a, f)` (rule R141). -/
def ccf (a f : Byte) : Byte := (f &&& 0xC4) ||| (a &&& 0x28) ||| flagAt 4 (flagC f) ||| flagAt 0 (!flagC f)

/-! ## 16-bit arithmetic (rules R142 to R144) -/

/-- `ADD16(x, y, f)` (rule R142). -/
def add16 (x y : Word) (f : Byte) : Word × Byte :=
  let s : Nat := x.toNat + y.toNat
  let r : Word := BitVec.ofNat 16 s
  (r, (f &&& 0xC4) ||| (hiByte r &&& 0x28) ||| flagAt 4 (hadd16 x y false) ||| flagAt 0 (decide (s > 65535)))

/-- `ADC16(x, y, c)` (rule R143). -/
def adc16 (x y : Word) (c : Bool) : Word × Byte :=
  let s : Nat := x.toNat + y.toNat + c.toNat
  let r : Word := BitVec.ofNat 16 s
  (r, (hiByte r &&& 0xA8) ||| flagAt 6 (r == 0) ||| flagAt 4 (hadd16 x y c) ||| flagAt 2 (vadd x y r) |||
    flagAt 0 (decide (s > 65535)))

/-- `SBC16(x, y, c)` (rule R144). -/
def sbc16 (x y : Word) (c : Bool) : Word × Byte :=
  let s : Int := (x.toNat : Int) - y.toNat - c.toNat
  let r : Word := BitVec.ofInt 16 s
  (r, (hiByte r &&& 0xA8) ||| flagAt 6 (r == 0) ||| flagAt 4 (hsub16 x y c) ||| flagAt 2 (vsub x y r) |||
    flagAt 1 true ||| flagAt 0 (decide (s < 0)))

/-! ## Block, I/O and special-register flags (rules R145 to R150) -/

/-- `LDIF(v, a, bc', f)` (rule R145). -/
def ldiF (v a : Byte) (bc : Word) (f : Byte) : Byte :=
  let n := v + a
  (f &&& 0xC1) ||| flagAt 5 (n.getLsbD 1) ||| flagAt 3 (n.getLsbD 3) ||| flagAt 2 (bc != 0)

/-- `CPIF(v, a, bc', f)` (rule R146). -/
def cpiF (v a : Byte) (bc : Word) (f : Byte) : Byte :=
  let r := a - v
  let h := hsub a v false
  let n := r - (if h then 1 else 0)
  (r &&& 0x80) ||| flagAt 6 (r == 0) ||| flagAt 5 (n.getLsbD 1) ||| flagAt 4 h ||| flagAt 3 (n.getLsbD 3) |||
    flagAt 2 (bc != 0) ||| flagAt 1 true ||| flagAt 0 (flagC f)

/-- `IOBF(v, k, b')` (rule R147). -/
def iobF (v : Byte) (k : Nat) (b : Byte) : Byte :=
  sz53 b ||| flagAt 4 (decide (k > 255)) ||| flagAt 2 (par (BitVec.ofNat 8 (k % 8) ^^^ b)) ||| flagAt 1 (v.getLsbD 7) |||
    flagAt 0 (decide (k > 255))

/-- `INF(v, f)` (rule R148). -/
def inF (v f : Byte) : Byte := sz53p v ||| flagAt 0 (flagC f)

/-- `IRF(v, iff, f)` (rule R149). -/
def irF (v : Byte) (iff : Bool) (f : Byte) : Byte := sz53 v ||| flagAt 2 iff ||| flagAt 0 (flagC f)

/-- `RDF(a', f)` (rule R150). -/
def rdF (a f : Byte) : Byte := sz53p a ||| flagAt 0 (flagC f)

end Sys2Proof.Machine
end

