-- ==== Sys2Proof/Config.lean ====
section
/-! DEFINITION. What the implementation of the core fixes (rule R8) and the one value it leaves to the host.

`Config` holds the parameters the spec calls OPEN (decisions D6 and D7) and the two fast-path switches, which the
model accepts and ignores (rule R397, decision D16). A step reads the configuration and never writes it (rule R40):
the state carries it, so that every claim about a state is a claim for every configuration. -/

namespace Sys2Proof

/-- The configuration of one instance of the core (rules R8 and R40). -/
structure Config where
  /-- FRAME_DURATION: T-states per video frame. -/
  frameDuration : Nat
  /-- INT_ACTIVE: for how many T-states at the start of each frame the interrupt is requested; 0 means never. -/
  intActive : Nat
  /-- FLOAT_BYTE: the floating low byte of the mode-2 vector address. -/
  floatByte : Byte
  /-- `fast_djnz`: accepted and ignored (rule R397). -/
  fastDjnz : Bool
  /-- `fast_ldir`: accepted and ignored (rule R397). -/
  fastLdir : Bool
  deriving DecidableEq, Repr

/-- The bounds rule R8 puts on the parameters: FRAME_DURATION at least 1, INT_ACTIVE from 0 to FRAME_DURATION. -/
def Config.wf (c : Config) : Bool :=
  decide (1 ≤ c.frameDuration) && decide (c.intActive ≤ c.frameDuration)

/-- The example values of rule R8, which the spec's worked examples and test vectors use.
DESIGN CHOICE (log 1): the spec calls the values OPEN. No statement rests on them. -/
def Config.example48k : Config where
  frameDuration := 69888
  intActive := 32
  floatByte := 0xFF
  fastDjnz := false
  fastLdir := false

/-- FREE VALUE (log 3). The byte an installed read-port capability answers when the state lists no answer for it:
"the answer is a draw from the host, a byte under no law" (rule R64, parameter P1). The first argument numbers the
reads, so that no two draws are tied to each other; the second is the 16-bit port address. It has no body. -/
opaque Config.portAnswer : Nat → Word → Byte

end Sys2Proof
end

