-- ==== Sys2Proof/Machine/State.lean ====
section
/-! DEFINITION. The state of the machine as plain data (10_state.md), the reasons a step could stop, and the state after
reset. -/

namespace Sys2Proof.Machine

/-- The reasons for a fault: NONE. "The core raises no synchronous exception" (rule R350): every byte sequence decodes
(R102), reads always succeed (R52), a write to ROM is dropped (R53). With no constructor nobody raises one: safe. -/
inductive Fault where
  deriving DecidableEq, Repr

/-- The reasons for a refusal. -/
inductive Refusal where
  /-- Raised by `exec`'s arm of an instruction that has no meaning yet. Safe. No arm of this model raises it. -/
  | notModelled (mnemonic : String)
  deriving DecidableEq, Repr

/-- The interrupt mode IM: 0, 1 or 2 (rule R33). -/
inductive IntMode where
  | im0 | im1 | im2
  deriving DecidableEq, Repr

/-- LAST: how the last instruction bears on interrupt acceptance (rule R34). -/
inductive Last where
  /-- OTHER -/
  | other
  /-- EI: the last instruction was EI. -/
  | ei
  /-- PREFIX: the last instruction was a lone DD or FD prefix. -/
  | lonePrefix
  /-- HALTED: the last instruction was HALT and it left PC at PC0. -/
  | halted
  deriving DecidableEq, Repr

/-- A bank of the eight main 8-bit registers (rule R21); the shadow set is a second one (rule R30). -/
structure RegSet where
  a : Byte
  f : Byte
  b : Byte
  c : Byte
  d : Byte
  e : Byte
  h : Byte
  l : Byte
  deriving DecidableEq, Repr

/-- One port write, as the history records it (rule R65). -/
structure PortWrite where
  port : Word
  value : Byte
  deriving DecidableEq, Repr

/-- The 64 KiB memory (rule R50) as the list of the bytes that differ from the fill byte, addresses rising
(`Memory.wf` in Machine/Memory.lean). -/
abbrev Memory := List Host.Cell

/-- The state: the 26 slots of rule R20, the interrupt state of R32 to R34, memory (R50), the port capability and history
(R64, R65), and the configuration, which no step writes (R40). -/
structure State where
  /-- A, F, B, C, D, E, H, L (rule R21). -/
  main : RegSet
  /-- A′, F′, B′, C′, D′, E′, H′, L′ (rule R30). -/
  shadow : RegSet
  /-- IXh (rule R23). -/
  ixh : Byte
  /-- IXl (rule R23). -/
  ixl : Byte
  /-- IYh (rule R23). -/
  iyh : Byte
  /-- IYl (rule R23). -/
  iyl : Byte
  /-- SP (rule R26), its two slots as one value (log 12). -/
  sp : Word
  /-- PC (rule R27): between steps, the address of the next instruction. -/
  pc : Word
  /-- I (rule R28). -/
  i : Byte
  /-- R (rule R29). -/
  r : Byte
  /-- T, the T-state counter (rule R31): a natural number with no bound. -/
  t : Nat
  /-- IFF, the interrupt-enable latch (rule R32). -/
  iff : Bool
  /-- IM (rule R33). -/
  im : IntMode
  /-- LAST (rule R34). -/
  last : Last
  /-- Memory (rule R50). -/
  mem : Memory
  /-- The read-port capability (rule R64, log 3): `none` where none is installed; `some answers` where the host has
  installed one, with the answers it gives next, the first first. -/
  readPort : Option (List Byte)
  /-- The MODEL's own field (log 4): how many answers the installed capability has given. -/
  portReads : Nat
  /-- The history of port writes, oldest first (rule R65). -/
  portWrites : List PortWrite
  /-- The configuration (rules R8 and R40). -/
  cfg : Config
  deriving DecidableEq, Repr

/-- A bank with every register 0. -/
def RegSet.zero : RegSet where
  a := 0
  f := 0
  b := 0
  c := 0
  d := 0
  e := 0
  h := 0
  l := 0

/-- The machine right after reset, which is construction without arguments (rules R39 and R390). -/
def State.reset : State where
  main := RegSet.zero
  shadow := RegSet.zero
  ixh := 0
  ixl := 0
  iyh := 0
  iyl := 0
  sp := 0
  pc := 0
  i := 0
  r := 0
  t := 0
  iff := false
  im := .im1
  last := .other
  mem := []
  readPort := none
  portReads := 0
  portWrites := []
  cfg := Config.example48k

end Sys2Proof.Machine
end

