-- ==== Sys2Proof/Machine/Memory.lean ====
section
/-! DEFINITION. Memory as a list of cells in one canonical form (rules R50 to R53): addresses strictly rising, below
65536, and no cell that holds the fill byte. Writing the fill byte removes the cell, so equal memories are equal lists. -/

namespace Sys2Proof.Machine

/-- What an address the list does not name reads as. DESIGN CHOICE (log 2): the spec leaves the memory image to the
caller (parameter P2); its vectors start from "memory all 00". -/
def Memory.fill : Byte := 0

/-- The byte at address `a`; rule R52, reads always succeed. -/
def Memory.get : Memory → Nat → Byte
  | [], _ => Memory.fill
  | (k, v) :: rest, a => if k = a then v else Memory.get rest a

/-- A cell in front of a list, unless it holds the fill byte. -/
def Memory.cons (a : Nat) (v : Byte) (m : Memory) : Memory :=
  if v = Memory.fill then m else (a, v) :: m

/-- Memory with the byte at `a` replaced, in canonical form. -/
def Memory.set : Memory → Nat → Byte → Memory
  | [], a, v => Memory.cons a v []
  | (k, w) :: rest, a, v =>
    if a < k then Memory.cons a v ((k, w) :: rest)
    else if a = k then Memory.cons a v rest
    else (k, w) :: Memory.set rest a v

/-- The canonical form from address `low` on. -/
def Memory.wfFrom : Nat → Memory → Bool
  | _, [] => true
  | low, (k, v) :: rest => decide (low ≤ k) && decide (k < 65536) && (v != Memory.fill) && Memory.wfFrom (k + 1) rest

/-- The canonical form: addresses strictly rising and below 65536, no fill byte listed. -/
def Memory.wf (m : Memory) : Bool := Memory.wfFrom 0 m

end Sys2Proof.Machine
end

