-- ==== Sys2Proof/Machine/Operands.lean ====
section
/-! DEFINITION. Every operand form the spec gives (rules R91 to R96): the registers, pairs, index registers and halves, the
conditions, the effective address (XY+d), and the bytes of memory they name. Reads and writes of a register go through
these accessors, so each register has one home. -/

namespace Sys2Proof.Machine

/-! ## Registers and pairs (rules R21 to R23, R91, R92) -/

/-- A register of a bank (rule R91). -/
def RegSet.get (g : RegSet) : Reg8 → Byte
  | .b => g.b
  | .c => g.c
  | .d => g.d
  | .e => g.e
  | .h => g.h
  | .l => g.l
  | .a => g.a

/-- A bank with one register replaced (rule R91). -/
def RegSet.set (g : RegSet) (r : Reg8) (v : Byte) : RegSet :=
  match r with
  | .b => { g with b := v }
  | .c => { g with c := v }
  | .d => { g with d := v }
  | .e => { g with e := v }
  | .h => { g with h := v }
  | .l => { g with l := v }
  | .a => { g with a := v }

/-- BC = B:C (rule R22). -/
def RegSet.bc (g : RegSet) : Word := pair g.b g.c

/-- DE = D:E (rule R22). -/
def RegSet.de (g : RegSet) : Word := pair g.d g.e

/-- HL = H:L (rule R22). -/
def RegSet.hl (g : RegSet) : Word := pair g.h g.l

/-- AF = A:F (rule R22). -/
def RegSet.af (g : RegSet) : Word := pair g.a g.f

/-- `BC <- v` writes both halves (rule R22). -/
def RegSet.setBC (g : RegSet) (v : Word) : RegSet := { g with b := hiByte v, c := loByte v }

/-- `DE <- v` (rule R22). -/
def RegSet.setDE (g : RegSet) (v : Word) : RegSet := { g with d := hiByte v, e := loByte v }

/-- `HL <- v` (rule R22). -/
def RegSet.setHL (g : RegSet) (v : Word) : RegSet := { g with h := hiByte v, l := loByte v }

/-- `AF <- v`: POP AF "loads F whole" (rules R22 and R176). -/
def RegSet.setAF (g : RegSet) (v : Word) : RegSet := { g with a := hiByte v, f := loByte v }

/-- The value of an 8-bit register. -/
def State.reg (s : State) (r : Reg8) : Byte := s.main.get r

/-- `r <- v`. -/
def State.setReg (s : State) (r : Reg8) (v : Byte) : State := { s with main := s.main.set r v }

/-- `F <- f`: F is written as a whole byte (rule R21). -/
def State.setF (s : State) (f : Byte) : State := { s with main := { s.main with f := f } }

/-- `(A, F) <- x`. -/
def State.setResA (s : State) (x : Byte × Byte) : State := { s with main := { s.main with a := x.1, f := x.2 } }

/-- `(r, F) <- x`. -/
def State.setResReg (s : State) (r : Reg8) (x : Byte × Byte) : State := (s.setReg r x.1).setF x.2

/-- BC. -/
def State.bc (s : State) : Word := s.main.bc

/-- DE. -/
def State.de (s : State) : Word := s.main.de

/-- HL. -/
def State.hl (s : State) : Word := s.main.hl

/-- `BC <- v`. -/
def State.setBC (s : State) (v : Word) : State := { s with main := s.main.setBC v }

/-- `DE <- v`. -/
def State.setDE (s : State) (v : Word) : State := { s with main := s.main.setDE v }

/-- `HL <- v`. -/
def State.setHL (s : State) (v : Word) : State := { s with main := s.main.setHL v }

/-- `SP <- v` (rule R26). -/
def State.setSP (s : State) (v : Word) : State := { s with sp := v }

/-- The value of a pair `rp` (rule R92). -/
def State.rp (s : State) : RegPair → Word
  | .bc => s.bc
  | .de => s.de
  | .hl => s.hl
  | .sp => s.sp

/-- `rp <- v` (rule R92). -/
def State.setRp (s : State) (p : RegPair) (v : Word) : State :=
  match p with
  | .bc => s.setBC v
  | .de => s.setDE v
  | .hl => s.setHL v
  | .sp => s.setSP v

/-- The value of a pair `rp2` (rule R92). -/
def State.rp2 (s : State) : StackPair → Word
  | .bc => s.bc
  | .de => s.de
  | .hl => s.hl
  | .af => s.main.af

/-- `rp2 <- v` (rule R92). -/
def State.setRp2 (s : State) (p : StackPair) (v : Word) : State :=
  match p with
  | .bc => s.setBC v
  | .de => s.setDE v
  | .hl => s.setHL v
  | .af => { s with main := s.main.setAF v }

/-- BC or DE, by the selector q (rules R165 and R166). -/
def State.indAddr (s : State) : IndPair → Word
  | .bc => s.bc
  | .de => s.de

/-! ## Index registers (rules R23 and R95) -/

/-- IX or IY. -/
def State.xy (s : State) : XY → Word
  | .ix => pair s.ixh s.ixl
  | .iy => pair s.iyh s.iyl

/-- `XY <- v`. -/
def State.setXY (s : State) (x : XY) (v : Word) : State :=
  match x with
  | .ix => { s with ixh := hiByte v, ixl := loByte v }
  | .iy => { s with iyh := hiByte v, iyl := loByte v }

/-- XYh or XYl. -/
def State.half (s : State) (x : XY) (h : Half) : Byte :=
  match x, h with
  | .ix, .hi => s.ixh
  | .ix, .lo => s.ixl
  | .iy, .hi => s.iyh
  | .iy, .lo => s.iyl

/-- `XYh <- v` or `XYl <- v`: the other half keeps its value (rule R236). -/
def State.setHalf (s : State) (x : XY) (h : Half) (v : Byte) : State :=
  match x, h with
  | .ix, .hi => { s with ixh := v }
  | .ix, .lo => { s with ixl := v }
  | .iy, .hi => { s with iyh := v }
  | .iy, .lo => { s with iyl := v }

/-- The value of `pp` in `ADD XY,pp`: value 2 is the index register itself (rule R212). -/
def State.pp (s : State) (x : XY) : IdxPair → Word
  | .bc => s.bc
  | .de => s.de
  | .xy => s.xy x
  | .sp => s.sp

/-- `ea = (XY + sext_8(d)) mod 65536` (rules R56, R95 and R96). -/
def State.ea (s : State) (x : XY) (d : Byte) : Word := s.xy x + sext8 d

/-! ## Conditions (rule R93) -/

/-- `cond(cc)` (rule R93). -/
def State.cond (s : State) : Cond → Bool
  | .nz => !flagZ s.main.f
  | .z => flagZ s.main.f
  | .nc => !flagC s.main.f
  | .c => flagC s.main.f
  | .po => !flagPV s.main.f
  | .pe => flagPV s.main.f
  | .p => !flagS s.main.f
  | .m => flagS s.main.f

/-! ## Memory operands (rules R51 to R56) -/

/-- Whether an address is ROM: 0x0000 to 0x3FFF (rule R51). -/
def isRom (a : Word) : Bool := decide (a.toNat ≤ 0x3FFF)

/-- `MemRead(a, 1)` (rule R52). -/
def State.readByte (s : State) (a : Word) : Byte := s.mem.get a.toNat

/-- `MemWrite(a, 1, v)`: a write to ROM is discarded (rule R53). -/
def State.writeByte (s : State) (a : Word) (v : Byte) : State :=
  if isRom a then s else { s with mem := s.mem.set a.toNat v }

/-- `MemRead(a, 2)`: little-endian, the second address taken mod 65536 (rules R10, R54 and R56). -/
def State.readWord (s : State) (a : Word) : Word := pair (s.readByte (a + 1)) (s.readByte a)

/-- `MemWrite(a, 2, v)`: low byte, then high byte, each with its own ROM check (rules R10, R54 and R57). -/
def State.writeWord (s : State) (a : Word) (v : Word) : State := (s.writeByte a (loByte v)).writeByte (a + 1) (hiByte v)

/-- A byte put into memory by the HOST, which loads ROM as well (rules R390 and R391): no ROM check. -/
def State.pokeByte (s : State) (a : Word) (v : Byte) : State := { s with mem := s.mem.set a.toNat v }

end Sys2Proof.Machine
end

