-- ==== Sys2Proof/Machine/Ops.lean ====
section
/-! DEFINITION. The named operations the meanings are built from: the common bookkeeping of every instruction (rules R83 to
R86), the stack (R57, R58), the ports (R64, R65), fetching (R60), taking the interrupt (R351 to R357) and returning
from it (R337, R338). -/

namespace Sys2Proof.Machine

/-- What an instruction answers. -/
abbrev Out := Host.Outcome State Fault Refusal

/-! ## The common bookkeeping (rules R83 to R86) -/

/-- `IncR(n)`: the low 7 bits count, bit 7 is kept (rule R84). -/
def State.incR (s : State) (n : Nat) : State :=
  { s with r := (s.r &&& 0x80) ||| ((s.r + BitVec.ofNat 8 n) &&& 0x7F) }

/-- What R83 does before the operation: LAST <- OTHER, then IncR. PC stays at PC0 while the operation runs (R27). -/
def State.prologue (s : State) (rinc : Nat) : State := { s with last := .other }.incR rinc

/-- What R83 does after it: charge the T-states and set PC. -/
def State.finish (s : State) (target : Word) (ts : Nat) : Out := .next { s with t := s.t + ts, pc := target }

/-- The end of an instruction whose operation does not set PC: `(PC0 + length) mod 65536` (rule R85). -/
def State.endSeq (s : State) (len ts : Nat) : Out := s.finish (s.pc + BitVec.ofNat 16 len) ts

/-! ## The stack (rules R57 and R58) -/

/-- `Push16(v)` (rule R57). -/
def State.push16 (s : State) (v : Word) : State := (s.setSP (s.sp - 2)).writeWord (s.sp - 2) v

/-- `Pop16()`: the word at SP and the state with SP + 2 (rule R58). -/
def State.pop16 (s : State) : Word × State := (s.readWord s.sp, s.setSP (s.sp + 2))

/-! ## The ports (rules R63 to R66) -/

/-- `PortRead(p)` (rule R64): 255 with no read capability; with one, its next listed answer, and past the list a free value
(log 3). -/
def State.portRead (s : State) (p : Word) : Byte × State :=
  match s.readPort with
  | none => (0xFF, s)
  | some [] => (Config.portAnswer s.portReads p, { s with portReads := s.portReads + 1 })
  | some (v :: rest) => (v, { s with readPort := some rest, portReads := s.portReads + 1 })

/-- `PortWrite(p, v)`: the event joins the history, write capability or none (rule R65). -/
def State.portWrite (s : State) (p : Word) (v : Byte) : State := { s with portWrites := s.portWrites ++ [⟨p, v⟩] }

/-! ## Fetching (rules R10, R60 and R82) -/

/-- `Fetch(k)`: the byte at `(PC0 + k) mod 65536` (rule R10). -/
def State.fetch (s : State) (k : Nat) : Byte := s.readByte (s.pc + BitVec.ofNat 16 k)

/-- The instruction at PC (rule R82), all its bytes read before it does anything (rule R61). -/
def State.fetchInstr (s : State) : Instr := decode4 (s.fetch 0) (s.fetch 1) (s.fetch 2) (s.fetch 3)

/-! ## The maskable interrupt (rules R351 to R357) -/

/-- `INT(T)`, the interrupt request line (rule R351). -/
def intLine (c : Config) (t : Nat) : Bool := decide (0 < c.intActive) && decide (t % c.frameDuration < c.intActive)

/-- Whether LAST defers acceptance: after EI and after a lone prefix (rule R353). -/
def Last.defers : Last → Bool
  | .ei | .lonePrefix => true
  | .other | .halted => false

/-- The condition of the acceptance check (rule R354). -/
def State.accepts (s : State) : Bool := s.iff && !s.last.defers && intLine s.cfg s.t

/-- The return address: PC, or the address after the HALT when halted (rules R354 and R357). -/
def State.returnAddr (s : State) : Word := if s.last = .halted then s.pc + 1 else s.pc

/-- Taking the interrupt: the acceptance sequence of rule R354, with the vectors of R355 and R356. -/
def State.takeInterrupt (s : State) : State :=
  let s1 := { (s.incR 1).push16 s.returnAddr with iff := false, last := .other }
  match s1.im with
  | .im2 => { s1 with pc := s1.readWord (pair s1.i s1.cfg.floatByte), t := s1.t + 19 }
  | .im0 | .im1 => { s1 with pc := 0x0038, t := s1.t + 13 }

/-- The acceptance check that ends every step (rules R352 and R354). -/
def State.acceptanceCheck (s : State) : State := if s.accepts then s.takeInterrupt else s

/-- Returning from an interrupt: `PC <- Pop16()`; IFF is unchanged (rules R337, R338 and R361). -/
def State.returnFromInterrupt (s : State) (ts : Nat) : Out := s.pop16.2.finish s.pop16.1 ts

end Sys2Proof.Machine
end

