-- ==== Sys2Proof/Machine/Arith.lean ====
section
/-! DEFINITION. The arithmetic and logic group, 42_arith_logic.md (rules R200 to R217). An 8-bit operation is one function
of the state and its operand's value v; its five forms (rule R200) differ in where v is read, in length, T-states and R. -/

namespace Sys2Proof.Machine

/-! ## The eight operations on A (rules R201 to R208) -/

/-- `(A, F) <- ADD8(A, v, 0)` (rule R201). -/
def State.addA (s : State) (v : Byte) : State := s.setResA (add8 s.main.a v false)

/-- `(A, F) <- ADD8(A, v, F.C)` (rule R202). -/
def State.adcA (s : State) (v : Byte) : State := s.setResA (add8 s.main.a v (flagC s.main.f))

/-- `(A, F) <- SUB8(A, v, 0)` (rule R203). -/
def State.subA (s : State) (v : Byte) : State := s.setResA (sub8 s.main.a v false)

/-- `(A, F) <- SUB8(A, v, F.C)` (rule R204). -/
def State.sbcA (s : State) (v : Byte) : State := s.setResA (sub8 s.main.a v (flagC s.main.f))

/-- `(A, F) <- AND8(A, v)` (rule R205). -/
def State.andA (s : State) (v : Byte) : State := s.setResA (and8 s.main.a v)

/-- `(A, F) <- XOR8(A, v)` (rule R206). -/
def State.xorA (s : State) (v : Byte) : State := s.setResA (xor8 s.main.a v)

/-- `(A, F) <- OR8(A, v)` (rule R207). -/
def State.orA (s : State) (v : Byte) : State := s.setResA (or8 s.main.a v)

/-- `F <- CP8(A, v)`; A is not written (rule R208). -/
def State.cpA (s : State) (v : Byte) : State := s.setF (cp8 s.main.a v)

/-! ### ADD (rule R201) -/

/-- `ADD A,r'`. -/
def execAddAR (r : Reg8) (s : State) : Out := let s := s.prologue 1; (s.addA (s.reg r)).endSeq 1 4

/-- `ADD A,(HL)`. -/
def execAddAAtHL (s : State) : Out := let s := s.prologue 1; (s.addA (s.readByte s.hl)).endSeq 1 7

/-- `ADD A,n`. -/
def execAddAN (n : Byte) (s : State) : Out := let s := s.prologue 1; (s.addA n).endSeq 2 7

/-- `ADD A,XYh/XYl`. -/
def execAddAXYH (x : XY) (h : Half) (s : State) : Out := let s := s.prologue 2; (s.addA (s.half x h)).endSeq 2 8

/-- `ADD A,(XY+d)`. -/
def execAddAAtXY (x : XY) (d : Byte) (s : State) : Out :=
  let s := s.prologue 2; (s.addA (s.readByte (s.ea x d))).endSeq 3 19

/-! ### ADC (rule R202) -/

/-- `ADC A,r'`. -/
def execAdcAR (r : Reg8) (s : State) : Out := let s := s.prologue 1; (s.adcA (s.reg r)).endSeq 1 4

/-- `ADC A,(HL)`. -/
def execAdcAAtHL (s : State) : Out := let s := s.prologue 1; (s.adcA (s.readByte s.hl)).endSeq 1 7

/-- `ADC A,n`. -/
def execAdcAN (n : Byte) (s : State) : Out := let s := s.prologue 1; (s.adcA n).endSeq 2 7

/-- `ADC A,XYh/XYl`. -/
def execAdcAXYH (x : XY) (h : Half) (s : State) : Out := let s := s.prologue 2; (s.adcA (s.half x h)).endSeq 2 8

/-- `ADC A,(XY+d)`. -/
def execAdcAAtXY (x : XY) (d : Byte) (s : State) : Out :=
  let s := s.prologue 2; (s.adcA (s.readByte (s.ea x d))).endSeq 3 19

/-! ### SUB (rule R203) -/

/-- `SUB r'`. -/
def execSubR (r : Reg8) (s : State) : Out := let s := s.prologue 1; (s.subA (s.reg r)).endSeq 1 4

/-- `SUB (HL)`. -/
def execSubAtHL (s : State) : Out := let s := s.prologue 1; (s.subA (s.readByte s.hl)).endSeq 1 7

/-- `SUB n`. -/
def execSubN (n : Byte) (s : State) : Out := let s := s.prologue 1; (s.subA n).endSeq 2 7

/-- `SUB XYh/XYl`. -/
def execSubXYH (x : XY) (h : Half) (s : State) : Out := let s := s.prologue 2; (s.subA (s.half x h)).endSeq 2 8

/-- `SUB (XY+d)`. -/
def execSubAtXY (x : XY) (d : Byte) (s : State) : Out :=
  let s := s.prologue 2; (s.subA (s.readByte (s.ea x d))).endSeq 3 19

/-! ### SBC (rule R204) -/

/-- `SBC A,r'`. -/
def execSbcAR (r : Reg8) (s : State) : Out := let s := s.prologue 1; (s.sbcA (s.reg r)).endSeq 1 4

/-- `SBC A,(HL)`. -/
def execSbcAAtHL (s : State) : Out := let s := s.prologue 1; (s.sbcA (s.readByte s.hl)).endSeq 1 7

/-- `SBC A,n`. -/
def execSbcAN (n : Byte) (s : State) : Out := let s := s.prologue 1; (s.sbcA n).endSeq 2 7

/-- `SBC A,XYh/XYl`. -/
def execSbcAXYH (x : XY) (h : Half) (s : State) : Out := let s := s.prologue 2; (s.sbcA (s.half x h)).endSeq 2 8

/-- `SBC A,(XY+d)`. -/
def execSbcAAtXY (x : XY) (d : Byte) (s : State) : Out :=
  let s := s.prologue 2; (s.sbcA (s.readByte (s.ea x d))).endSeq 3 19

/-! ### AND (rule R205) -/

/-- `AND r'`. -/
def execAndR (r : Reg8) (s : State) : Out := let s := s.prologue 1; (s.andA (s.reg r)).endSeq 1 4

/-- `AND (HL)`. -/
def execAndAtHL (s : State) : Out := let s := s.prologue 1; (s.andA (s.readByte s.hl)).endSeq 1 7

/-- `AND n`. -/
def execAndN (n : Byte) (s : State) : Out := let s := s.prologue 1; (s.andA n).endSeq 2 7

/-- `AND XYh/XYl`. -/
def execAndXYH (x : XY) (h : Half) (s : State) : Out := let s := s.prologue 2; (s.andA (s.half x h)).endSeq 2 8

/-- `AND (XY+d)`. -/
def execAndAtXY (x : XY) (d : Byte) (s : State) : Out :=
  let s := s.prologue 2; (s.andA (s.readByte (s.ea x d))).endSeq 3 19

/-! ### XOR (rule R206) -/

/-- `XOR r'`. -/
def execXorR (r : Reg8) (s : State) : Out := let s := s.prologue 1; (s.xorA (s.reg r)).endSeq 1 4

/-- `XOR (HL)`. -/
def execXorAtHL (s : State) : Out := let s := s.prologue 1; (s.xorA (s.readByte s.hl)).endSeq 1 7

/-- `XOR n`. -/
def execXorN (n : Byte) (s : State) : Out := let s := s.prologue 1; (s.xorA n).endSeq 2 7

/-- `XOR XYh/XYl`. -/
def execXorXYH (x : XY) (h : Half) (s : State) : Out := let s := s.prologue 2; (s.xorA (s.half x h)).endSeq 2 8

/-- `XOR (XY+d)`. -/
def execXorAtXY (x : XY) (d : Byte) (s : State) : Out :=
  let s := s.prologue 2; (s.xorA (s.readByte (s.ea x d))).endSeq 3 19

/-! ### OR (rule R207) -/

/-- `OR r'`. -/
def execOrR (r : Reg8) (s : State) : Out := let s := s.prologue 1; (s.orA (s.reg r)).endSeq 1 4

/-- `OR (HL)`. -/
def execOrAtHL (s : State) : Out := let s := s.prologue 1; (s.orA (s.readByte s.hl)).endSeq 1 7

/-- `OR n`. -/
def execOrN (n : Byte) (s : State) : Out := let s := s.prologue 1; (s.orA n).endSeq 2 7

/-- `OR XYh/XYl`. -/
def execOrXYH (x : XY) (h : Half) (s : State) : Out := let s := s.prologue 2; (s.orA (s.half x h)).endSeq 2 8

/-- `OR (XY+d)`. -/
def execOrAtXY (x : XY) (d : Byte) (s : State) : Out :=
  let s := s.prologue 2; (s.orA (s.readByte (s.ea x d))).endSeq 3 19

/-! ### CP (rule R208) -/

/-- `CP r'`. -/
def execCpR (r : Reg8) (s : State) : Out := let s := s.prologue 1; (s.cpA (s.reg r)).endSeq 1 4

/-- `CP (HL)`. -/
def execCpAtHL (s : State) : Out := let s := s.prologue 1; (s.cpA (s.readByte s.hl)).endSeq 1 7

/-- `CP n`. -/
def execCpN (n : Byte) (s : State) : Out := let s := s.prologue 1; (s.cpA n).endSeq 2 7

/-- `CP XYh/XYl`. -/
def execCpXYH (x : XY) (h : Half) (s : State) : Out := let s := s.prologue 2; (s.cpA (s.half x h)).endSeq 2 8

/-- `CP (XY+d)`. -/
def execCpAtXY (x : XY) (d : Byte) (s : State) : Out :=
  let s := s.prologue 2; (s.cpA (s.readByte (s.ea x d))).endSeq 3 19

/-! ## 16-bit arithmetic -/

/-- `(HL, F) <- x`. -/
def State.setResHL (s : State) (x : Word × Byte) : State := (s.setHL x.1).setF x.2

/-- `ADD HL,rp` (rule R209). -/
def execAddHLRp (rp : RegPair) (s : State) : Out :=
  let s := s.prologue 1; (s.setResHL (add16 s.hl (s.rp rp) s.main.f)).endSeq 1 11

/-- `ADC HL,rp` (rule R210). -/
def execAdcHLRp (rp : RegPair) (s : State) : Out :=
  let s := s.prologue 2; (s.setResHL (adc16 s.hl (s.rp rp) (flagC s.main.f))).endSeq 2 15

/-- `SBC HL,rp` (rule R211). -/
def execSbcHLRp (rp : RegPair) (s : State) : Out :=
  let s := s.prologue 2; (s.setResHL (sbc16 s.hl (s.rp rp) (flagC s.main.f))).endSeq 2 15

/-- `ADD XY,pp` (rule R212). -/
def execAddXYRp (x : XY) (pp : IdxPair) (s : State) : Out :=
  let s := s.prologue 2
  let res := add16 (s.xy x) (s.pp x pp) s.main.f
  ((s.setXY x res.1).setF res.2).endSeq 2 15

/-! ## Accumulator adjustments and carry operations -/

/-- `DAA` (rule R213). -/
def execDaa (s : State) : Out := let s := s.prologue 1; (s.setResA (daa s.main.a s.main.f)).endSeq 1 4

/-- `CPL` (rule R214). -/
def execCpl (s : State) : Out := let s := s.prologue 1; (s.setResA (cpl s.main.a s.main.f)).endSeq 1 4

/-- `NEG`, every y (rule R215). -/
def execNeg (_y : BitVec 3) (s : State) : Out := let s := s.prologue 2; (s.setResA (neg8 s.main.a)).endSeq 2 8

/-- `SCF` (rule R216). -/
def execScf (s : State) : Out := let s := s.prologue 1; (s.setF (scf s.main.a s.main.f)).endSeq 1 4

/-- `CCF` (rule R217). -/
def execCcf (s : State) : Out := let s := s.prologue 1; (s.setF (ccf s.main.a s.main.f)).endSeq 1 4

end Sys2Proof.Machine
end

