-- ==== Sys2Proof/Machine/Block.lean ====
section
/-! DEFINITION. Block transfer, compare and I/O, and single port I/O, 45_block_io.md (rules R275 to R298). Each step is written
once with the direction as an addend (1 up, −1 down); a repeating form is one step and then the mechanism of R275, so
every iteration is a whole instruction (R276). -/

namespace Sys2Proof.Machine

/-- The address part of a direction: `+ 1` for the forms that move up. -/
def up : Word := 1

/-- `- 1` for the forms that move down. -/
def down : Word := 0xFFFF

/-- The repeat mechanism: back to PC0 for 21 T-states, or on for 16 (rule R275). -/
def State.repeatOrEnd (s : State) (again : Bool) : Out := if again then s.finish s.pc 21 else s.endSeq 2 16

/-! ## Block transfer (rules R277 to R280) -/

/-- One step of LDI (up) or LDD (down) (rules R277 and R278). -/
def State.ldStep (s : State) (δ : Word) : State :=
  let v := s.readByte s.hl
  let s := s.writeByte s.de v
  let s := ((s.setHL (s.hl + δ)).setDE (s.de + δ)).setBC (s.bc - 1)
  s.setF (ldiF v s.main.a s.bc s.main.f)

/-- `LDI` (rule R277). -/
def execLdi (s : State) : Out := ((s.prologue 2).ldStep up).endSeq 2 16

/-- `LDD` (rule R278). -/
def execLdd (s : State) : Out := ((s.prologue 2).ldStep down).endSeq 2 16

/-- `LDIR` (rule R279). -/
def execLdir (s : State) : Out := let s := (s.prologue 2).ldStep up; s.repeatOrEnd (s.bc != 0)

/-- `LDDR` (rule R280). -/
def execLddr (s : State) : Out := let s := (s.prologue 2).ldStep down; s.repeatOrEnd (s.bc != 0)

/-! ## Block compare (rules R281 to R284) -/

/-- One step of CPI (up) or CPD (down) (rules R281 and R282). -/
def State.cpStep (s : State) (δ : Word) : State :=
  let v := s.readByte s.hl
  let s := (s.setHL (s.hl + δ)).setBC (s.bc - 1)
  s.setF (cpiF v s.main.a s.bc s.main.f)

/-- `CPI` (rule R281). -/
def execCpi (s : State) : Out := ((s.prologue 2).cpStep up).endSeq 2 16

/-- `CPD` (rule R282). -/
def execCpd (s : State) : Out := ((s.prologue 2).cpStep down).endSeq 2 16

/-- A repeating compare: one step, again while BC ≠ 0 and A ≠ v, the byte compared (rules R283 and R284). -/
def State.cpRepeat (s : State) (δ : Word) : Out :=
  let v := s.readByte s.hl
  let s := s.cpStep δ
  s.repeatOrEnd (s.bc != 0 && s.main.a != v)

/-- `CPIR` (rule R283). -/
def execCpir (s : State) : Out := (s.prologue 2).cpRepeat up

/-- `CPDR` (rule R284). -/
def execCpdr (s : State) : Out := (s.prologue 2).cpRepeat down

/-! ## Block I/O (rules R285 to R292) -/

/-- One step of INI (up) or IND (down): port B:C with B before its decrement; `k = v + ((C ± 1) mod 256)` (rules R285 and
R286). -/
def State.inStep (s : State) (δ : Word) : State :=
  let v := (s.portRead s.bc).1
  let s := (s.portRead s.bc).2
  let s := s.writeByte s.hl v
  let s := (s.setReg .b (s.main.b - 1)).setHL (s.hl + δ)
  s.setF (iobF v (v.toNat + (s.main.c + loByte δ).toNat) s.main.b)

/-- `INI` (rule R285). -/
def execIni (s : State) : Out := ((s.prologue 2).inStep up).endSeq 2 16

/-- `IND` (rule R286). -/
def execInd (s : State) : Out := ((s.prologue 2).inStep down).endSeq 2 16

/-- `INIR` (rule R287). -/
def execInir (s : State) : Out := let s := (s.prologue 2).inStep up; s.repeatOrEnd (s.main.b != 0)

/-- `INDR` (rule R288). -/
def execIndr (s : State) : Out := let s := (s.prologue 2).inStep down; s.repeatOrEnd (s.main.b != 0)

/-- One step of OUTI (up) or OUTD (down): port B:C with B after its decrement; `k = v + L` with L after HL has moved
(rules R289 and R290). -/
def State.outStep (s : State) (δ : Word) : State :=
  let v := s.readByte s.hl
  let s := s.setReg .b (s.main.b - 1)
  let s := s.portWrite s.bc v
  let s := s.setHL (s.hl + δ)
  s.setF (iobF v (v.toNat + s.main.l.toNat) s.main.b)

/-- `OUTI` (rule R289). -/
def execOuti (s : State) : Out := ((s.prologue 2).outStep up).endSeq 2 16

/-- `OUTD` (rule R290). -/
def execOutd (s : State) : Out := ((s.prologue 2).outStep down).endSeq 2 16

/-- `OTIR` (rule R291). -/
def execOtir (s : State) : Out := let s := (s.prologue 2).outStep up; s.repeatOrEnd (s.main.b != 0)

/-- `OTDR` (rule R292). -/
def execOtdr (s : State) : Out := let s := (s.prologue 2).outStep down; s.repeatOrEnd (s.main.b != 0)

/-! ## Single port I/O (rules R293 to R298, port addresses R66) -/

/-- `IN A,(n)`: port A:n, A before the read (rule R293). -/
def execInAN (n : Byte) (s : State) : Out :=
  let s := s.prologue 1
  let p := pair s.main.a n
  ((s.portRead p).2.setReg .a (s.portRead p).1).endSeq 2 11

/-- `IN r,(C)` (rule R294). -/
def execInRC (r : Reg8) (s : State) : Out :=
  let s := s.prologue 2
  let v := (s.portRead s.bc).1
  ((s.portRead s.bc).2.setResReg r (v, inF v s.main.f)).endSeq 2 12

/-- `IN F,(C)`: no register receives the byte (rule R295). -/
def execInFC (s : State) : Out :=
  let s := s.prologue 2
  let v := (s.portRead s.bc).1
  ((s.portRead s.bc).2.setF (inF v s.main.f)).endSeq 2 12

/-- `OUT (n),A`: port A:n (rule R296). -/
def execOutNA (n : Byte) (s : State) : Out :=
  let s := s.prologue 1; (s.portWrite (pair s.main.a n) s.main.a).endSeq 2 11

/-- `OUT (C),r` (rule R297). -/
def execOutCR (r : Reg8) (s : State) : Out := let s := s.prologue 2; (s.portWrite s.bc (s.reg r)).endSeq 2 12

/-- `OUT (C),0` (rule R298). -/
def execOutC0 (s : State) : Out := let s := s.prologue 2; (s.portWrite s.bc 0).endSeq 2 12

end Sys2Proof.Machine
end

