-- ==== Sys2Proof/Machine/Control.lean ====
section
/-! DEFINITION. The control-flow group, 46_control_flow.md (rules R300 to R312). While an operation runs PC holds PC0, so the
return address of a call is PC0 + 3 and the target of a relative jump is PC0 + 2 + e. No rule here changes F. -/

namespace Sys2Proof.Machine

/-- The target of a relative jump: `(PC0 + 2 + e) mod 65536` (rules R94 and R302). -/
def State.relTarget (s : State) (e : Byte) : Word := s.pc + 2 + sext8 e

/-- `Push16(ret)`, then `PC <- target` (rules R307 and R311). -/
def State.callTo (s : State) (ret target : Word) (ts : Nat) : Out := (s.push16 ret).finish target ts

/-- `PC <- Pop16()` (rule R309). -/
def State.retTo (s : State) (ts : Nat) : Out := s.pop16.2.finish s.pop16.1 ts

/-- `JP nn` (rule R300). -/
def execJpNn (nn : Word) (s : State) : Out := (s.prologue 1).finish nn 10

/-- `JP cc,nn`: 10 T-states whether or not it jumps (rule R301). -/
def execJpCcNn (cc : Cond) (nn : Word) (s : State) : Out :=
  let s := s.prologue 1; if s.cond cc then s.finish nn 10 else s.endSeq 3 10

/-- `JR e` (rule R302). -/
def execJr (e : Byte) (s : State) : Out := let s := s.prologue 1; s.finish (s.relTarget e) 12

/-- `JR cc,e` (rule R303). -/
def execJrCc (cc : Cond) (e : Byte) (s : State) : Out :=
  let s := s.prologue 1; if s.cond cc then s.finish (s.relTarget e) 12 else s.endSeq 2 7

/-- `JP (HL)`: no memory is read (rule R304). -/
def execJpHL (s : State) : Out := let s := s.prologue 1; s.finish s.hl 4

/-- `JP (XY)` (rule R305). -/
def execJpXY (x : XY) (s : State) : Out := let s := s.prologue 2; s.finish (s.xy x) 8

/-- `DJNZ e` (rule R306). -/
def execDjnz (e : Byte) (s : State) : Out :=
  let s := s.prologue 1
  let s := s.setReg .b (s.main.b - 1)
  if s.main.b != 0 then s.finish (s.relTarget e) 13 else s.endSeq 2 8

/-- `CALL nn` (rule R307). -/
def execCallNn (nn : Word) (s : State) : Out := let s := s.prologue 1; s.callTo (s.pc + 3) nn 17

/-- `CALL cc,nn`: not taken, no stack access (rule R308). -/
def execCallCcNn (cc : Cond) (nn : Word) (s : State) : Out :=
  let s := s.prologue 1; if s.cond cc then s.callTo (s.pc + 3) nn 17 else s.endSeq 3 10

/-- `RET` (rule R309). -/
def execRet (s : State) : Out := (s.prologue 1).retTo 10

/-- `RET cc` (rule R310). -/
def execRetCc (cc : Cond) (s : State) : Out :=
  let s := s.prologue 1; if s.cond cc then s.retTo 11 else s.endSeq 1 5

/-- `RST p`: the target is p × 8 (rule R311). -/
def execRst (p : BitVec 3) (s : State) : Out :=
  let s := s.prologue 1; s.callTo (s.pc + 1) (BitVec.ofNat 16 (p.toNat * 8)) 11

end Sys2Proof.Machine
end

