-- ==== Sys2Proof/Machine/CpuControl.lean ====
section
/-! DEFINITION. The CPU-control group, 48_cpu_control.md (rules R330 to R340). No rule here changes F. -/

namespace Sys2Proof.Machine

/-- `NOP` (rule R330). -/
def execNop (s : State) : Out := (s.prologue 1).endSeq 1 4

/-- Whether the 4 T-states of a HALT at `t0` span a multiple of FRAME_DURATION (rule R331, decision D8). -/
def crossesFrame (c : Config) (t0 : Nat) : Bool := decide ((t0 + 4) / c.frameDuration > t0 / c.frameDuration)

/-- `HALT` (rules R331 and R357). -/
def execHalt (s : State) : Out :=
  let s := s.prologue 1
  if s.iff && crossesFrame s.cfg s.t then s.endSeq 1 4 else { s with last := .halted }.finish s.pc 4

/-- `DI` (rule R332). -/
def execDi (s : State) : Out := { s.prologue 1 with iff := false }.endSeq 1 4

/-- `EI`: LAST = EI puts off acceptance by one instruction (rule R333). -/
def execEi (s : State) : Out := { s.prologue 1 with iff := true, last := .ei }.endSeq 1 4

/-- `IM 0` and its duplicates (rule R334). -/
def execIm0 (_y : BitVec 3) (s : State) : Out := { s.prologue 2 with im := .im0 }.endSeq 2 8

/-- `IM 1` and its duplicate (rule R335). -/
def execIm1 (_y : BitVec 3) (s : State) : Out := { s.prologue 2 with im := .im1 }.endSeq 2 8

/-- `IM 2` and its duplicate (rule R336). -/
def execIm2 (_y : BitVec 3) (s : State) : Out := { s.prologue 2 with im := .im2 }.endSeq 2 8

/-- `RETN` and its duplicates: IFF is unchanged (rule R337). -/
def execRetn (_y : BitVec 3) (s : State) : Out := (s.prologue 2).returnFromInterrupt 14

/-- `RETI`: IFF is unchanged (rule R338). -/
def execReti (s : State) : Out := (s.prologue 2).returnFromInterrupt 14

/-- An unassigned ED code: 2 bytes, 8 T-states, no operation (rule R339). -/
def edNoOp (s : State) : Out := (s.prologue 2).endSeq 2 8

/-- ED 77 (rule R339). -/
def execNopED77 (s : State) : Out := edNoOp s

/-- ED 7F (rule R339). -/
def execNopED7F (s : State) : Out := edNoOp s

/-- ED 00 to 3F (rule R339). -/
def execNopEDLow (_x : BitVec 6) (s : State) : Out := edNoOp s

/-- ED C0 to FF (rule R339). -/
def execNopEDHigh (_x : BitVec 6) (s : State) : Out := edNoOp s

/-- ED 80 to BF, less the block instructions (rule R339). -/
def execNopEDMid (_x : BitVec 6) (s : State) : Out := edNoOp s

/-- A lone DD or FD (rules R90 and R340): LAST = PREFIX puts off acceptance by one instruction; the next byte is not
consumed. -/
def execLonePrefix (_xy : XY) (s : State) : Out := { s.prologue 1 with last := .lonePrefix }.endSeq 1 4

end Sys2Proof.Machine
end

