-- ==== Sys2Proof/Machine/Exchange.lean ====
section
/-! DEFINITION. The exchange group, 47_exchange.md (rules R320 to R324). -/

namespace Sys2Proof.Machine

/-- `EX AF,AF′` (rule R320). -/
def execExAfAf (s : State) : Out :=
  let s := s.prologue 1
  { s with main := s.main.setAF s.shadow.af, shadow := s.shadow.setAF s.main.af }.endSeq 1 4

/-- `EX DE,HL` (rule R321). -/
def execExDEHL (s : State) : Out := let s := s.prologue 1; ((s.setDE s.hl).setHL s.de).endSeq 1 4

/-- `EXX` (rule R322): A and F stay. -/
def execExx (s : State) : Out :=
  let s := s.prologue 1
  { s with
    main := { s.shadow with a := s.main.a, f := s.main.f },
    shadow := { s.main with a := s.shadow.a, f := s.shadow.f } }.endSeq 1 4

/-- `EX (SP),HL`: SP is unchanged; in a ROM stack HL still takes the old word (rule R323). -/
def execExSPHL (s : State) : Out :=
  let s := s.prologue 1; ((s.writeWord s.sp s.hl).setHL (s.readWord s.sp)).endSeq 1 19

/-- `EX (SP),XY` (rule R324). -/
def execExSPXY (x : XY) (s : State) : Out :=
  let s := s.prologue 2; ((s.writeWord s.sp (s.xy x)).setXY x (s.readWord s.sp)).endSeq 2 23

end Sys2Proof.Machine
end

