-- ==== Sys2Proof/Machine/IncDec.lean ====
section
/-! DEFINITION. The increment and decrement group, 43_inc_dec.md (rules R230 to R241). The 8-bit forms keep C; the 16-bit forms
change no flag. A memory form on a ROM byte discards the write and still sets F (rule R232). -/

namespace Sys2Proof.Machine

/-- `MemWrite(a, 1, w)` and `F <- f`, for a computed pair (w, f). -/
def State.setResMem (s : State) (a : Word) (x : Byte × Byte) : State := (s.writeByte a x.1).setF x.2

/-! ## 8-bit -/

/-- `INC r` (rule R230). -/
def execIncR (r : Reg8) (s : State) : Out := let s := s.prologue 1; (s.setResReg r (inc8 (s.reg r) s.main.f)).endSeq 1 4

/-- `DEC r` (rule R231). -/
def execDecR (r : Reg8) (s : State) : Out := let s := s.prologue 1; (s.setResReg r (dec8 (s.reg r) s.main.f)).endSeq 1 4

/-- `INC (HL)` (rule R232). -/
def execIncAtHL (s : State) : Out :=
  let s := s.prologue 1; (s.setResMem s.hl (inc8 (s.readByte s.hl) s.main.f)).endSeq 1 11

/-- `DEC (HL)` (rule R233). -/
def execDecAtHL (s : State) : Out :=
  let s := s.prologue 1; (s.setResMem s.hl (dec8 (s.readByte s.hl) s.main.f)).endSeq 1 11

/-- `INC (XY+d)` (rule R234). -/
def execIncAtXY (x : XY) (d : Byte) (s : State) : Out :=
  let s := s.prologue 2; (s.setResMem (s.ea x d) (inc8 (s.readByte (s.ea x d)) s.main.f)).endSeq 3 23

/-- `DEC (XY+d)` (rule R235). -/
def execDecAtXY (x : XY) (d : Byte) (s : State) : Out :=
  let s := s.prologue 2; (s.setResMem (s.ea x d) (dec8 (s.readByte (s.ea x d)) s.main.f)).endSeq 3 23

/-- `INC XYh` and `INC XYl` (rule R236). -/
def execIncXYH (x : XY) (h : Half) (s : State) : Out :=
  let s := s.prologue 2
  let res := inc8 (s.half x h) s.main.f
  ((s.setHalf x h res.1).setF res.2).endSeq 2 8

/-- `DEC XYh` and `DEC XYl` (rule R237). -/
def execDecXYH (x : XY) (h : Half) (s : State) : Out :=
  let s := s.prologue 2
  let res := dec8 (s.half x h) s.main.f
  ((s.setHalf x h res.1).setF res.2).endSeq 2 8

/-! ## 16-bit -/

/-- `INC rp` (rule R238). -/
def execIncRp (rp : RegPair) (s : State) : Out := let s := s.prologue 1; (s.setRp rp (s.rp rp + 1)).endSeq 1 6

/-- `DEC rp` (rule R239). -/
def execDecRp (rp : RegPair) (s : State) : Out := let s := s.prologue 1; (s.setRp rp (s.rp rp - 1)).endSeq 1 6

/-- `INC XY` (rule R240). -/
def execIncXY (x : XY) (s : State) : Out := let s := s.prologue 2; (s.setXY x (s.xy x + 1)).endSeq 2 10

/-- `DEC XY` (rule R241). -/
def execDecXY (x : XY) (s : State) : Out := let s := s.prologue 2; (s.setXY x (s.xy x - 1)).endSeq 2 10

end Sys2Proof.Machine
end

