-- ==== Sys2Proof/Machine/Load.lean ====
section
/-! DEFINITION. The load group, 41_load.md (rules R160 to R191). No flag changes but in `LD A,I` and `LD A,R`; every store
goes through the ROM check of `writeByte`. -/

namespace Sys2Proof.Machine

/-! ## 8-bit loads, main table -/

/-- `LD r,r'` (rule R160). -/
def execLdRR (r r' : Reg8) (s : State) : Out := let s := s.prologue 1; (s.setReg r (s.reg r')).endSeq 1 4

/-- `LD r,n` (rule R161). -/
def execLdRN (r : Reg8) (n : Byte) (s : State) : Out := ((s.prologue 1).setReg r n).endSeq 2 7

/-- `LD r,(HL)` (rule R162). -/
def execLdRAtHL (r : Reg8) (s : State) : Out := let s := s.prologue 1; (s.setReg r (s.readByte s.hl)).endSeq 1 7

/-- `LD (HL),r` (rule R163). -/
def execLdAtHLR (r : Reg8) (s : State) : Out := let s := s.prologue 1; (s.writeByte s.hl (s.reg r)).endSeq 1 7

/-- `LD (HL),n` (rule R164). -/
def execLdAtHLN (n : Byte) (s : State) : Out := let s := s.prologue 1; (s.writeByte s.hl n).endSeq 2 10

/-- `LD A,(BC)` and `LD A,(DE)` (rule R165). -/
def execLdAInd (q : IndPair) (s : State) : Out :=
  let s := s.prologue 1; (s.setReg .a (s.readByte (s.indAddr q))).endSeq 1 7

/-- `LD (BC),A` and `LD (DE),A` (rule R166). -/
def execLdIndA (q : IndPair) (s : State) : Out :=
  let s := s.prologue 1; (s.writeByte (s.indAddr q) (s.reg .a)).endSeq 1 7

/-- `LD A,(nn)` (rule R167). -/
def execLdAAtNn (nn : Word) (s : State) : Out := let s := s.prologue 1; (s.setReg .a (s.readByte nn)).endSeq 3 13

/-- `LD (nn),A` (rule R168). -/
def execLdAtNnA (nn : Word) (s : State) : Out := let s := s.prologue 1; (s.writeByte nn (s.reg .a)).endSeq 3 13

/-! ## 16-bit loads, main and ED tables -/

/-- `LD rp,nn` (rule R169). -/
def execLdRpNn (rp : RegPair) (nn : Word) (s : State) : Out := ((s.prologue 1).setRp rp nn).endSeq 3 10

/-- `LD HL,(nn)` (rule R170). -/
def execLdHLAtNn (nn : Word) (s : State) : Out := let s := s.prologue 1; (s.setHL (s.readWord nn)).endSeq 3 16

/-- `LD (nn),HL` (rule R171): each byte has its own ROM check. -/
def execLdAtNnHL (nn : Word) (s : State) : Out := let s := s.prologue 1; (s.writeWord nn s.hl).endSeq 3 16

/-- `LD rp,(nn)`, ED form (rule R172). -/
def execLdRpAtNn (rp : RegPair) (nn : Word) (s : State) : Out :=
  let s := s.prologue 2; (s.setRp rp (s.readWord nn)).endSeq 4 20

/-- `LD (nn),rp`, ED form (rule R173). -/
def execLdAtNnRp (rp : RegPair) (nn : Word) (s : State) : Out :=
  let s := s.prologue 2; (s.writeWord nn (s.rp rp)).endSeq 4 20

/-- `LD SP,HL` (rule R174). -/
def execLdSPHL (s : State) : Out := let s := s.prologue 1; (s.setSP s.hl).endSeq 1 6

/-- `PUSH rp2` (rule R175). -/
def execPushRp (rp : StackPair) (s : State) : Out := let s := s.prologue 1; (s.push16 (s.rp2 rp)).endSeq 1 11

/-- `POP rp2` (rule R176); `POP AF` loads F whole. -/
def execPopRp (rp : StackPair) (s : State) : Out :=
  let s := s.prologue 1; (s.pop16.2.setRp2 rp s.pop16.1).endSeq 1 10

/-! ## Special-register loads, ED table -/

/-- `LD I,A` (rule R177). -/
def execLdIA (s : State) : Out := let s := s.prologue 2; { s with i := s.reg .a }.endSeq 2 9

/-- `LD R,A` (rule R178): after the increment of the prologue, so R equals A. -/
def execLdRA (s : State) : Out := let s := s.prologue 2; { s with r := s.reg .a }.endSeq 2 9

/-- `LD A,I` (rule R179). -/
def execLdAI (s : State) : Out := let s := s.prologue 2; (s.setResA (s.i, irF s.i s.iff s.main.f)).endSeq 2 9

/-- `LD A,R` (rule R180): R is read after this instruction's own increment. -/
def execLdAR (s : State) : Out := let s := s.prologue 2; (s.setResA (s.r, irF s.r s.iff s.main.f)).endSeq 2 9

/-! ## Index-register loads, DD/FD table -/

/-- `LD r,XYh/XYl` (rule R181). -/
def execLdRXYH (x : XY) (r : Reg8) (h : Half) (s : State) : Out :=
  let s := s.prologue 2; (s.setReg r (s.half x h)).endSeq 2 8

/-- `LD XYh/XYl,r'` (rule R181). -/
def execLdXYHR (x : XY) (h : Half) (r' : Reg8) (s : State) : Out :=
  let s := s.prologue 2; (s.setHalf x h (s.reg r')).endSeq 2 8

/-- `LD XYh/XYl,XYh/XYl` (rule R181). -/
def execLdXYHXYH (x : XY) (h k : Half) (s : State) : Out :=
  let s := s.prologue 2; (s.setHalf x h (s.half x k)).endSeq 2 8

/-- `LD XYh,n` and `LD XYl,n` (rule R182). -/
def execLdXYHN (x : XY) (h : Half) (n : Byte) (s : State) : Out := ((s.prologue 2).setHalf x h n).endSeq 3 11

/-- `LD r,(XY+d)` (rule R183). -/
def execLdRAtXY (x : XY) (r : Reg8) (d : Byte) (s : State) : Out :=
  let s := s.prologue 2; (s.setReg r (s.readByte (s.ea x d))).endSeq 3 19

/-- `LD (XY+d),r` (rule R184). -/
def execLdAtXYR (x : XY) (r : Reg8) (d : Byte) (s : State) : Out :=
  let s := s.prologue 2; (s.writeByte (s.ea x d) (s.reg r)).endSeq 3 19

/-- `LD (XY+d),n` (rule R185). -/
def execLdAtXYN (x : XY) (d n : Byte) (s : State) : Out :=
  let s := s.prologue 2; (s.writeByte (s.ea x d) n).endSeq 4 19

/-- `LD XY,nn` (rule R186). -/
def execLdXYNn (x : XY) (nn : Word) (s : State) : Out := ((s.prologue 2).setXY x nn).endSeq 4 14

/-- `LD XY,(nn)` (rule R187). -/
def execLdXYAtNn (x : XY) (nn : Word) (s : State) : Out :=
  let s := s.prologue 2; (s.setXY x (s.readWord nn)).endSeq 4 20

/-- `LD (nn),XY` (rule R188). -/
def execLdAtNnXY (x : XY) (nn : Word) (s : State) : Out :=
  let s := s.prologue 2; (s.writeWord nn (s.xy x)).endSeq 4 20

/-- `LD SP,XY` (rule R189). -/
def execLdSPXY (x : XY) (s : State) : Out := let s := s.prologue 2; (s.setSP (s.xy x)).endSeq 2 10

/-- `PUSH XY` (rule R190). -/
def execPushXY (x : XY) (s : State) : Out := let s := s.prologue 2; (s.push16 (s.xy x)).endSeq 2 15

/-- `POP XY` (rule R191). -/
def execPopXY (x : XY) (s : State) : Out := let s := s.prologue 2; (s.pop16.2.setXY x s.pop16.1).endSeq 2 14

end Sys2Proof.Machine
end

