-- ==== Sys2Proof/Machine/Rotate.lean ====
section
/-! DEFINITION. The rotate, shift and bit group, 44_rotate_shift_bit.md (rules R245 to R266). The four operand forms of rule
R249 are written once for a function from the byte read to the byte written and the new F; a memory write to ROM is
discarded while F and a register copy are still written. -/

namespace Sys2Proof.Machine

/-! ## Accumulator rotates, main table -/

/-- `(A, F) <- ROTA(k, A, F)`: the form of rules R245 to R248. -/
def rotaForm (k : RotKind) (s : State) : Out := let s := s.prologue 1; (s.setResA (rota k s.main.a s.main.f)).endSeq 1 4

/-- `RLCA` (rule R245). -/
def execRlca (s : State) : Out := rotaForm .rlc s

/-- `RRCA` (rule R246). -/
def execRrca (s : State) : Out := rotaForm .rrc s

/-- `RLA` (rule R247). -/
def execRla (s : State) : Out := rotaForm .rl s

/-- `RRA` (rule R248). -/
def execRra (s : State) : Out := rotaForm .rr s

/-! ## The operand forms of the CB and DDCB/FDCB tables (rules R249, R258, R259)

`g v f` is the operation: from the byte v read and the old F, the byte w written and the new F. -/

/-- Register form (rule R249). -/
def cbReg (g : Byte → Byte → Byte × Byte) (r : Reg8) (s : State) : Out :=
  let s := s.prologue 2; (s.setResReg r (g (s.reg r) s.main.f)).endSeq 2 8

/-- (HL) form (rule R249). -/
def cbAtHL (g : Byte → Byte → Byte × Byte) (s : State) : Out :=
  let s := s.prologue 2
  let res := g (s.readByte s.hl) s.main.f
  ((s.writeByte s.hl res.1).setF res.2).endSeq 2 15

/-- Indexed form: `ea` is computed once, for the read and the write (rule R258). -/
def cbAtXY (g : Byte → Byte → Byte × Byte) (x : XY) (d : Byte) (s : State) : Out :=
  let s := s.prologue 2
  let res := g (s.readByte (s.ea x d)) s.main.f
  ((s.writeByte (s.ea x d) res.1).setF res.2).endSeq 4 23

/-- Indexed form with the register copy: the register gets the byte written, H and L being H and L (rule R259). -/
def cbAtXYR (g : Byte → Byte → Byte × Byte) (x : XY) (d : Byte) (r : Reg8) (s : State) : Out :=
  let s := s.prologue 2
  let res := g (s.readByte (s.ea x d)) s.main.f
  ((s.writeByte (s.ea x d) res.1).setResReg r res).endSeq 4 23

/-- The operation of the rotates and shifts: `(w, F) <- ROT(k, v, F.C)` (rules R250 to R257). -/
def rotOp (k : RotKind) (v f : Byte) : Byte × Byte := rot k v (flagC f)

/-- The operation of RES: bit b cleared, F kept (rule R263). -/
def resOp (b : BitVec 3) (v f : Byte) : Byte × Byte := (v &&& (0xFF ^^^ (1#8 <<< b.toNat)), f)

/-- The operation of SET: bit b set, F kept (rule R264). -/
def setOp (b : BitVec 3) (v f : Byte) : Byte × Byte := (v ||| (1#8 <<< b.toNat), f)

/-! ## Rotates and shifts -/

/-- `RLC r` (rule R250). -/
def execRlcR (r : Reg8) (s : State) : Out := cbReg (rotOp .rlc) r s

/-- `RLC (HL)` (rule R250). -/
def execRlcAtHL (s : State) : Out := cbAtHL (rotOp .rlc) s

/-- `RLC (XY+d)` (rule R250). -/
def execRlcAtXY (x : XY) (d : Byte) (s : State) : Out := cbAtXY (rotOp .rlc) x d s

/-- `RLC (XY+d),r` (rules R250 and R259). -/
def execRlcAtXYR (x : XY) (d : Byte) (r : Reg8) (s : State) : Out := cbAtXYR (rotOp .rlc) x d r s

/-- `RRC r` (rule R251). -/
def execRrcR (r : Reg8) (s : State) : Out := cbReg (rotOp .rrc) r s

/-- `RRC (HL)` (rule R251). -/
def execRrcAtHL (s : State) : Out := cbAtHL (rotOp .rrc) s

/-- `RRC (XY+d)` (rule R251). -/
def execRrcAtXY (x : XY) (d : Byte) (s : State) : Out := cbAtXY (rotOp .rrc) x d s

/-- `RRC (XY+d),r` (rules R251 and R259). -/
def execRrcAtXYR (x : XY) (d : Byte) (r : Reg8) (s : State) : Out := cbAtXYR (rotOp .rrc) x d r s

/-- `RL r` (rule R252). -/
def execRlR (r : Reg8) (s : State) : Out := cbReg (rotOp .rl) r s

/-- `RL (HL)` (rule R252). -/
def execRlAtHL (s : State) : Out := cbAtHL (rotOp .rl) s

/-- `RL (XY+d)` (rule R252). -/
def execRlAtXY (x : XY) (d : Byte) (s : State) : Out := cbAtXY (rotOp .rl) x d s

/-- `RL (XY+d),r` (rules R252 and R259). -/
def execRlAtXYR (x : XY) (d : Byte) (r : Reg8) (s : State) : Out := cbAtXYR (rotOp .rl) x d r s

/-- `RR r` (rule R253). -/
def execRrR (r : Reg8) (s : State) : Out := cbReg (rotOp .rr) r s

/-- `RR (HL)` (rule R253). -/
def execRrAtHL (s : State) : Out := cbAtHL (rotOp .rr) s

/-- `RR (XY+d)` (rule R253). -/
def execRrAtXY (x : XY) (d : Byte) (s : State) : Out := cbAtXY (rotOp .rr) x d s

/-- `RR (XY+d),r` (rules R253 and R259). -/
def execRrAtXYR (x : XY) (d : Byte) (r : Reg8) (s : State) : Out := cbAtXYR (rotOp .rr) x d r s

/-- `SLA r` (rule R254). -/
def execSlaR (r : Reg8) (s : State) : Out := cbReg (rotOp .sla) r s

/-- `SLA (HL)` (rule R254). -/
def execSlaAtHL (s : State) : Out := cbAtHL (rotOp .sla) s

/-- `SLA (XY+d)` (rule R254). -/
def execSlaAtXY (x : XY) (d : Byte) (s : State) : Out := cbAtXY (rotOp .sla) x d s

/-- `SLA (XY+d),r` (rules R254 and R259). -/
def execSlaAtXYR (x : XY) (d : Byte) (r : Reg8) (s : State) : Out := cbAtXYR (rotOp .sla) x d r s

/-- `SRA r` (rule R255). -/
def execSraR (r : Reg8) (s : State) : Out := cbReg (rotOp .sra) r s

/-- `SRA (HL)` (rule R255). -/
def execSraAtHL (s : State) : Out := cbAtHL (rotOp .sra) s

/-- `SRA (XY+d)` (rule R255). -/
def execSraAtXY (x : XY) (d : Byte) (s : State) : Out := cbAtXY (rotOp .sra) x d s

/-- `SRA (XY+d),r` (rules R255 and R259). -/
def execSraAtXYR (x : XY) (d : Byte) (r : Reg8) (s : State) : Out := cbAtXYR (rotOp .sra) x d r s

/-- `SLL r` (rule R256). -/
def execSllR (r : Reg8) (s : State) : Out := cbReg (rotOp .sll) r s

/-- `SLL (HL)` (rule R256). -/
def execSllAtHL (s : State) : Out := cbAtHL (rotOp .sll) s

/-- `SLL (XY+d)` (rule R256). -/
def execSllAtXY (x : XY) (d : Byte) (s : State) : Out := cbAtXY (rotOp .sll) x d s

/-- `SLL (XY+d),r` (rules R256 and R259). -/
def execSllAtXYR (x : XY) (d : Byte) (r : Reg8) (s : State) : Out := cbAtXYR (rotOp .sll) x d r s

/-- `SRL r` (rule R257). -/
def execSrlR (r : Reg8) (s : State) : Out := cbReg (rotOp .srl) r s

/-- `SRL (HL)` (rule R257). -/
def execSrlAtHL (s : State) : Out := cbAtHL (rotOp .srl) s

/-- `SRL (XY+d)` (rule R257). -/
def execSrlAtXY (x : XY) (d : Byte) (s : State) : Out := cbAtXY (rotOp .srl) x d s

/-- `SRL (XY+d),r` (rules R257 and R259). -/
def execSrlAtXYR (x : XY) (d : Byte) (r : Reg8) (s : State) : Out := cbAtXYR (rotOp .srl) x d r s

/-! ## Bit test, reset and set -/

/-- `BIT b,r` (rule R260): bits 5 and 3 from the register. -/
def execBitR (b : BitVec 3) (r : Reg8) (s : State) : Out :=
  let s := s.prologue 2; (s.setF (bitF b (s.reg r) (s.reg r) s.main.f)).endSeq 2 8

/-- `BIT b,(HL)` (rule R261): bits 5 and 3 from the tested byte. -/
def execBitAtHL (b : BitVec 3) (s : State) : Out :=
  let s := s.prologue 2; (s.setF (bitF b (s.readByte s.hl) (s.readByte s.hl) s.main.f)).endSeq 2 12

/-- `BIT b,(XY+d)` (rule R262): bits 5 and 3 from the high byte of the address; z is ignored. -/
def execBitAtXY (x : XY) (d : Byte) (b _z : BitVec 3) (s : State) : Out :=
  let s := s.prologue 2; (s.setF (bitF b (s.readByte (s.ea x d)) (hiByte (s.ea x d)) s.main.f)).endSeq 4 20

/-- `RES b,r` (rule R263). -/
def execResR (b : BitVec 3) (r : Reg8) (s : State) : Out := cbReg (resOp b) r s

/-- `RES b,(HL)` (rule R263). -/
def execResAtHL (b : BitVec 3) (s : State) : Out := cbAtHL (resOp b) s

/-- `RES b,(XY+d)` (rule R263). -/
def execResAtXY (x : XY) (d : Byte) (b : BitVec 3) (s : State) : Out := cbAtXY (resOp b) x d s

/-- `RES b,(XY+d),r` (rules R263 and R259). -/
def execResAtXYR (x : XY) (d : Byte) (b : BitVec 3) (r : Reg8) (s : State) : Out := cbAtXYR (resOp b) x d r s

/-- `SET b,r` (rule R264). -/
def execSetR (b : BitVec 3) (r : Reg8) (s : State) : Out := cbReg (setOp b) r s

/-- `SET b,(HL)` (rule R264). -/
def execSetAtHL (b : BitVec 3) (s : State) : Out := cbAtHL (setOp b) s

/-- `SET b,(XY+d)` (rule R264). -/
def execSetAtXY (x : XY) (d : Byte) (b : BitVec 3) (s : State) : Out := cbAtXY (setOp b) x d s

/-- `SET b,(XY+d),r` (rules R264 and R259). -/
def execSetAtXYR (x : XY) (d : Byte) (b : BitVec 3) (r : Reg8) (s : State) : Out := cbAtXYR (setOp b) x d r s

/-! ## Digit rotates, ED table -/

/-- `RLD` (rule R265): the digits move (HL) low to (HL) high to A low to (HL) low. -/
def execRld (s : State) : Out :=
  let s := s.prologue 2
  let v := s.readByte s.hl
  let a := (s.main.a &&& 0xF0) ||| (v >>> 4)
  ((s.writeByte s.hl ((v <<< 4) ||| (s.main.a &&& 0x0F))).setResA (a, rdF a s.main.f)).endSeq 2 18

/-- `RRD` (rule R266): the digits move the other way. -/
def execRrd (s : State) : Out :=
  let s := s.prologue 2
  let v := s.readByte s.hl
  let a := (s.main.a &&& 0xF0) ||| (v &&& 0x0F)
  ((s.writeByte s.hl (((s.main.a &&& 0x0F) <<< 4) ||| (v >>> 4))).setResA (a, rdF a s.main.f)).endSeq 2 18

end Sys2Proof.Machine
end

