-- ==== Sys2Proof/Machine/TablePrefix.lean ====
section
/-! DEFINITION. The five prefix rows of opcode_table.json (rules R82 and R96). A prefix "selects an alternate 256-entry
instruction table rather than encoding a complete instruction by itself" (R12), so the decoder never gives one of them: it
gives the instruction that the bytes after the prefix select. Their meaning (log 9, DEDUCED) is what R82 says a prefix does:
select the table, read the bytes after it relative to PC0, and run the entry they give, all as one instruction. -/

namespace Sys2Proof.Machine

/-- The meaning of an entry of the CB, ED, DD/FD and DDCB/FDCB tables. These tables hold no main-table row and no
prefix row, so the last arm is never reached from a table (`Laws/TablePrefix.lean` proves it); it changes nothing but LAST. -/
def runTableEntry (i : Instr) (s : State) : Out :=
  match i with
  | .rlcR r' => execRlcR r' s
  | .rlcAtHL => execRlcAtHL s
  | .rrcR r' => execRrcR r' s
  | .rrcAtHL => execRrcAtHL s
  | .rlR r' => execRlR r' s
  | .rlAtHL => execRlAtHL s
  | .rrR r' => execRrR r' s
  | .rrAtHL => execRrAtHL s
  | .slaR r' => execSlaR r' s
  | .slaAtHL => execSlaAtHL s
  | .sraR r' => execSraR r' s
  | .sraAtHL => execSraAtHL s
  | .sllR r' => execSllR r' s
  | .sllAtHL => execSllAtHL s
  | .srlR r' => execSrlR r' s
  | .srlAtHL => execSrlAtHL s
  | .bitR b r' => execBitR b r' s
  | .bitAtHL b => execBitAtHL b s
  | .resR b r' => execResR b r' s
  | .resAtHL b => execResAtHL b s
  | .setR b r' => execSetR b r' s
  | .setAtHL b => execSetAtHL b s
  | .inRC r => execInRC r s
  | .inFC => execInFC s
  | .outCR r => execOutCR r s
  | .outC0 => execOutC0 s
  | .sbcHLRp rp => execSbcHLRp rp s
  | .adcHLRp rp => execAdcHLRp rp s
  | .ldAtNnRp rp nn => execLdAtNnRp rp nn s
  | .ldRpAtNn rp nn => execLdRpAtNn rp nn s
  | .neg y => execNeg y s
  | .retn y => execRetn y s
  | .reti => execReti s
  | .im0 y => execIm0 y s
  | .im1 y => execIm1 y s
  | .im2 y => execIm2 y s
  | .ldIA => execLdIA s
  | .ldRA => execLdRA s
  | .ldAI => execLdAI s
  | .ldAR => execLdAR s
  | .rrd => execRrd s
  | .rld => execRld s
  | .nopED77 => execNopED77 s
  | .nopED7F => execNopED7F s
  | .ldi => execLdi s
  | .cpi => execCpi s
  | .ini => execIni s
  | .outi => execOuti s
  | .ldd => execLdd s
  | .cpd => execCpd s
  | .ind => execInd s
  | .outd => execOutd s
  | .ldir => execLdir s
  | .cpir => execCpir s
  | .inir => execInir s
  | .otir => execOtir s
  | .lddr => execLddr s
  | .cpdr => execCpdr s
  | .indr => execIndr s
  | .otdr => execOtdr s
  | .nopEDLow x => execNopEDLow x s
  | .nopEDHigh x => execNopEDHigh x s
  | .nopEDMid x => execNopEDMid x s
  | .addXYRp xy pp => execAddXYRp xy pp s
  | .ldXYNn xy nn => execLdXYNn xy nn s
  | .ldAtNnXY xy nn => execLdAtNnXY xy nn s
  | .incXY xy => execIncXY xy s
  | .incXYH xy h => execIncXYH xy h s
  | .decXYH xy h => execDecXYH xy h s
  | .ldXYHN xy h n => execLdXYHN xy h n s
  | .ldXYAtNn xy nn => execLdXYAtNn xy nn s
  | .decXY xy => execDecXY xy s
  | .incAtXY xy d => execIncAtXY xy d s
  | .decAtXY xy d => execDecAtXY xy d s
  | .ldAtXYN xy d n => execLdAtXYN xy d n s
  | .ldRXYH xy r h => execLdRXYH xy r h s
  | .ldXYHR xy h r' => execLdXYHR xy h r' s
  | .ldXYHXYH xy h k => execLdXYHXYH xy h k s
  | .ldRAtXY xy r d => execLdRAtXY xy r d s
  | .ldAtXYR xy r' d => execLdAtXYR xy r' d s
  | .addAXYH xy h => execAddAXYH xy h s
  | .addAAtXY xy d => execAddAAtXY xy d s
  | .adcAXYH xy h => execAdcAXYH xy h s
  | .adcAAtXY xy d => execAdcAAtXY xy d s
  | .subXYH xy h => execSubXYH xy h s
  | .subAtXY xy d => execSubAtXY xy d s
  | .sbcAXYH xy h => execSbcAXYH xy h s
  | .sbcAAtXY xy d => execSbcAAtXY xy d s
  | .andXYH xy h => execAndXYH xy h s
  | .andAtXY xy d => execAndAtXY xy d s
  | .xorXYH xy h => execXorXYH xy h s
  | .xorAtXY xy d => execXorAtXY xy d s
  | .orXYH xy h => execOrXYH xy h s
  | .orAtXY xy d => execOrAtXY xy d s
  | .cpXYH xy h => execCpXYH xy h s
  | .cpAtXY xy d => execCpAtXY xy d s
  | .popXY xy => execPopXY xy s
  | .exSPXY xy => execExSPXY xy s
  | .pushXY xy => execPushXY xy s
  | .jpXY xy => execJpXY xy s
  | .ldSPXY xy => execLdSPXY xy s
  | .lonePrefix xy => execLonePrefix xy s
  | .rlcAtXY xy d => execRlcAtXY xy d s
  | .rlcAtXYR xy d r' => execRlcAtXYR xy d r' s
  | .rrcAtXY xy d => execRrcAtXY xy d s
  | .rrcAtXYR xy d r' => execRrcAtXYR xy d r' s
  | .rlAtXY xy d => execRlAtXY xy d s
  | .rlAtXYR xy d r' => execRlAtXYR xy d r' s
  | .rrAtXY xy d => execRrAtXY xy d s
  | .rrAtXYR xy d r' => execRrAtXYR xy d r' s
  | .slaAtXY xy d => execSlaAtXY xy d s
  | .slaAtXYR xy d r' => execSlaAtXYR xy d r' s
  | .sraAtXY xy d => execSraAtXY xy d s
  | .sraAtXYR xy d r' => execSraAtXYR xy d r' s
  | .sllAtXY xy d => execSllAtXY xy d s
  | .sllAtXYR xy d r' => execSllAtXYR xy d r' s
  | .srlAtXY xy d => execSrlAtXY xy d s
  | .srlAtXYR xy d r' => execSrlAtXYR xy d r' s
  | .bitAtXY xy d b z => execBitAtXY xy d b z s
  | .resAtXY xy d b => execResAtXY xy d b s
  | .resAtXYR xy d b r' => execResAtXYR xy d b r' s
  | .setAtXY xy d b => execSetAtXY xy d b s
  | .setAtXYR xy d b r' => execSetAtXYR xy d b r' s
  | _ => .next { s with last := .other }

/-- Prefix CB: the CB table at the byte after it (rule R82). -/
def execPrefixCB (s : State) : Out := runTableEntry (decodeCB (s.fetch 1)) s

/-- Prefix ED: the ED table at the byte after it (rule R82). -/
def execPrefixED (s : State) : Out := runTableEntry (decodeED (s.fetch 1) (s.fetch 2) (s.fetch 3)) s

/-- Prefix DD: the DD table, or the DDCB table, or a lone prefix (rules R82 and R90). -/
def execPrefixDD (s : State) : Out := runTableEntry (decodeXY .ix (s.fetch 1) (s.fetch 2) (s.fetch 3)) s

/-- Prefix FD: the FD table, or the FDCB table, or a lone prefix (rules R82 and R90). -/
def execPrefixFD (s : State) : Out := runTableEntry (decodeXY .iy (s.fetch 1) (s.fetch 2) (s.fetch 3)) s

/-- Prefix DD CB or FD CB: the DDCB/FDCB table at the fourth byte, the displacement being the third (rule R96). -/
def execPrefixXYCB (xy : XY) (s : State) : Out := runTableEntry (decodeXYCB xy (s.fetch 2) (s.fetch 3)) s

end Sys2Proof.Machine
end

