-- ==== Sys2Proof/Machine/Dispatch.lean ====
section
/-! DEFINITION. The dispatch from an instruction to its meaning (rule R81), one arm for each constructor of `Instr`. -/

namespace Sys2Proof.Machine

def exec (i : Instr) (s : State) : Host.Outcome State Fault Refusal :=
  match i with
  | .nop => Sys2Proof.Machine.execNop s
  | .ldRpNn rp nn => Sys2Proof.Machine.execLdRpNn rp nn s
  | .ldIndA q => Sys2Proof.Machine.execLdIndA q s
  | .incRp rp => Sys2Proof.Machine.execIncRp rp s
  | .incR r => Sys2Proof.Machine.execIncR r s
  | .incAtHL => Sys2Proof.Machine.execIncAtHL s
  | .decR r => Sys2Proof.Machine.execDecR r s
  | .decAtHL => Sys2Proof.Machine.execDecAtHL s
  | .ldRN r n => Sys2Proof.Machine.execLdRN r n s
  | .ldAtHLN n => Sys2Proof.Machine.execLdAtHLN n s
  | .rlca => Sys2Proof.Machine.execRlca s
  | .rrca => Sys2Proof.Machine.execRrca s
  | .rla => Sys2Proof.Machine.execRla s
  | .rra => Sys2Proof.Machine.execRra s
  | .daa => Sys2Proof.Machine.execDaa s
  | .cpl => Sys2Proof.Machine.execCpl s
  | .scf => Sys2Proof.Machine.execScf s
  | .ccf => Sys2Proof.Machine.execCcf s
  | .exAfAf => Sys2Proof.Machine.execExAfAf s
  | .addHLRp rp => Sys2Proof.Machine.execAddHLRp rp s
  | .ldAInd q => Sys2Proof.Machine.execLdAInd q s
  | .decRp rp => Sys2Proof.Machine.execDecRp rp s
  | .djnz e => Sys2Proof.Machine.execDjnz e s
  | .jr e => Sys2Proof.Machine.execJr e s
  | .jrCc cc e => Sys2Proof.Machine.execJrCc cc e s
  | .ldAtNnHL nn => Sys2Proof.Machine.execLdAtNnHL nn s
  | .ldHLAtNn nn => Sys2Proof.Machine.execLdHLAtNn nn s
  | .ldAtNnA nn => Sys2Proof.Machine.execLdAtNnA nn s
  | .ldAAtNn nn => Sys2Proof.Machine.execLdAAtNn nn s
  | .ldRR r r' => Sys2Proof.Machine.execLdRR r r' s
  | .ldRAtHL r => Sys2Proof.Machine.execLdRAtHL r s
  | .ldAtHLR r' => Sys2Proof.Machine.execLdAtHLR r' s
  | .halt => Sys2Proof.Machine.execHalt s
  | .addAR r' => Sys2Proof.Machine.execAddAR r' s
  | .addAAtHL => Sys2Proof.Machine.execAddAAtHL s
  | .addAN n => Sys2Proof.Machine.execAddAN n s
  | .adcAR r' => Sys2Proof.Machine.execAdcAR r' s
  | .adcAAtHL => Sys2Proof.Machine.execAdcAAtHL s
  | .adcAN n => Sys2Proof.Machine.execAdcAN n s
  | .subR r' => Sys2Proof.Machine.execSubR r' s
  | .subAtHL => Sys2Proof.Machine.execSubAtHL s
  | .subN n => Sys2Proof.Machine.execSubN n s
  | .sbcAR r' => Sys2Proof.Machine.execSbcAR r' s
  | .sbcAAtHL => Sys2Proof.Machine.execSbcAAtHL s
  | .sbcAN n => Sys2Proof.Machine.execSbcAN n s
  | .andR r' => Sys2Proof.Machine.execAndR r' s
  | .andAtHL => Sys2Proof.Machine.execAndAtHL s
  | .andN n => Sys2Proof.Machine.execAndN n s
  | .xorR r' => Sys2Proof.Machine.execXorR r' s
  | .xorAtHL => Sys2Proof.Machine.execXorAtHL s
  | .xorN n => Sys2Proof.Machine.execXorN n s
  | .orR r' => Sys2Proof.Machine.execOrR r' s
  | .orAtHL => Sys2Proof.Machine.execOrAtHL s
  | .orN n => Sys2Proof.Machine.execOrN n s
  | .cpR r' => Sys2Proof.Machine.execCpR r' s
  | .cpAtHL => Sys2Proof.Machine.execCpAtHL s
  | .cpN n => Sys2Proof.Machine.execCpN n s
  | .retCc cc => Sys2Proof.Machine.execRetCc cc s
  | .popRp rp => Sys2Proof.Machine.execPopRp rp s
  | .jpCcNn cc nn => Sys2Proof.Machine.execJpCcNn cc nn s
  | .jpNn nn => Sys2Proof.Machine.execJpNn nn s
  | .outNA n => Sys2Proof.Machine.execOutNA n s
  | .inAN n => Sys2Proof.Machine.execInAN n s
  | .exSPHL => Sys2Proof.Machine.execExSPHL s
  | .exDEHL => Sys2Proof.Machine.execExDEHL s
  | .di => Sys2Proof.Machine.execDi s
  | .ei => Sys2Proof.Machine.execEi s
  | .callCcNn cc nn => Sys2Proof.Machine.execCallCcNn cc nn s
  | .pushRp rp => Sys2Proof.Machine.execPushRp rp s
  | .callNn nn => Sys2Proof.Machine.execCallNn nn s
  | .rst p => Sys2Proof.Machine.execRst p s
  | .ret => Sys2Proof.Machine.execRet s
  | .exx => Sys2Proof.Machine.execExx s
  | .jpHL => Sys2Proof.Machine.execJpHL s
  | .ldSPHL => Sys2Proof.Machine.execLdSPHL s
  | .prefixCB => Sys2Proof.Machine.execPrefixCB s
  | .prefixED => Sys2Proof.Machine.execPrefixED s
  | .prefixDD => Sys2Proof.Machine.execPrefixDD s
  | .prefixFD => Sys2Proof.Machine.execPrefixFD s
  | .rlcR r' => Sys2Proof.Machine.execRlcR r' s
  | .rlcAtHL => Sys2Proof.Machine.execRlcAtHL s
  | .rrcR r' => Sys2Proof.Machine.execRrcR r' s
  | .rrcAtHL => Sys2Proof.Machine.execRrcAtHL s
  | .rlR r' => Sys2Proof.Machine.execRlR r' s
  | .rlAtHL => Sys2Proof.Machine.execRlAtHL s
  | .rrR r' => Sys2Proof.Machine.execRrR r' s
  | .rrAtHL => Sys2Proof.Machine.execRrAtHL s
  | .slaR r' => Sys2Proof.Machine.execSlaR r' s
  | .slaAtHL => Sys2Proof.Machine.execSlaAtHL s
  | .sraR r' => Sys2Proof.Machine.execSraR r' s
  | .sraAtHL => Sys2Proof.Machine.execSraAtHL s
  | .sllR r' => Sys2Proof.Machine.execSllR r' s
  | .sllAtHL => Sys2Proof.Machine.execSllAtHL s
  | .srlR r' => Sys2Proof.Machine.execSrlR r' s
  | .srlAtHL => Sys2Proof.Machine.execSrlAtHL s
  | .bitR b r' => Sys2Proof.Machine.execBitR b r' s
  | .bitAtHL b => Sys2Proof.Machine.execBitAtHL b s
  | .resR b r' => Sys2Proof.Machine.execResR b r' s
  | .resAtHL b => Sys2Proof.Machine.execResAtHL b s
  | .setR b r' => Sys2Proof.Machine.execSetR b r' s
  | .setAtHL b => Sys2Proof.Machine.execSetAtHL b s
  | .inRC r => Sys2Proof.Machine.execInRC r s
  | .inFC => Sys2Proof.Machine.execInFC s
  | .outCR r => Sys2Proof.Machine.execOutCR r s
  | .outC0 => Sys2Proof.Machine.execOutC0 s
  | .sbcHLRp rp => Sys2Proof.Machine.execSbcHLRp rp s
  | .adcHLRp rp => Sys2Proof.Machine.execAdcHLRp rp s
  | .ldAtNnRp rp nn => Sys2Proof.Machine.execLdAtNnRp rp nn s
  | .ldRpAtNn rp nn => Sys2Proof.Machine.execLdRpAtNn rp nn s
  | .neg y => Sys2Proof.Machine.execNeg y s
  | .retn y => Sys2Proof.Machine.execRetn y s
  | .reti => Sys2Proof.Machine.execReti s
  | .im0 y => Sys2Proof.Machine.execIm0 y s
  | .im1 y => Sys2Proof.Machine.execIm1 y s
  | .im2 y => Sys2Proof.Machine.execIm2 y s
  | .ldIA => Sys2Proof.Machine.execLdIA s
  | .ldRA => Sys2Proof.Machine.execLdRA s
  | .ldAI => Sys2Proof.Machine.execLdAI s
  | .ldAR => Sys2Proof.Machine.execLdAR s
  | .rrd => Sys2Proof.Machine.execRrd s
  | .rld => Sys2Proof.Machine.execRld s
  | .nopED77 => Sys2Proof.Machine.execNopED77 s
  | .nopED7F => Sys2Proof.Machine.execNopED7F s
  | .ldi => Sys2Proof.Machine.execLdi s
  | .cpi => Sys2Proof.Machine.execCpi s
  | .ini => Sys2Proof.Machine.execIni s
  | .outi => Sys2Proof.Machine.execOuti s
  | .ldd => Sys2Proof.Machine.execLdd s
  | .cpd => Sys2Proof.Machine.execCpd s
  | .ind => Sys2Proof.Machine.execInd s
  | .outd => Sys2Proof.Machine.execOutd s
  | .ldir => Sys2Proof.Machine.execLdir s
  | .cpir => Sys2Proof.Machine.execCpir s
  | .inir => Sys2Proof.Machine.execInir s
  | .otir => Sys2Proof.Machine.execOtir s
  | .lddr => Sys2Proof.Machine.execLddr s
  | .cpdr => Sys2Proof.Machine.execCpdr s
  | .indr => Sys2Proof.Machine.execIndr s
  | .otdr => Sys2Proof.Machine.execOtdr s
  | .nopEDLow x => Sys2Proof.Machine.execNopEDLow x s
  | .nopEDHigh x => Sys2Proof.Machine.execNopEDHigh x s
  | .nopEDMid x => Sys2Proof.Machine.execNopEDMid x s
  | .addXYRp xy pp => Sys2Proof.Machine.execAddXYRp xy pp s
  | .ldXYNn xy nn => Sys2Proof.Machine.execLdXYNn xy nn s
  | .ldAtNnXY xy nn => Sys2Proof.Machine.execLdAtNnXY xy nn s
  | .incXY xy => Sys2Proof.Machine.execIncXY xy s
  | .incXYH xy h => Sys2Proof.Machine.execIncXYH xy h s
  | .decXYH xy h => Sys2Proof.Machine.execDecXYH xy h s
  | .ldXYHN xy h n => Sys2Proof.Machine.execLdXYHN xy h n s
  | .ldXYAtNn xy nn => Sys2Proof.Machine.execLdXYAtNn xy nn s
  | .decXY xy => Sys2Proof.Machine.execDecXY xy s
  | .incAtXY xy d => Sys2Proof.Machine.execIncAtXY xy d s
  | .decAtXY xy d => Sys2Proof.Machine.execDecAtXY xy d s
  | .ldAtXYN xy d n => Sys2Proof.Machine.execLdAtXYN xy d n s
  | .ldRXYH xy r h => Sys2Proof.Machine.execLdRXYH xy r h s
  | .ldXYHR xy h r' => Sys2Proof.Machine.execLdXYHR xy h r' s
  | .ldXYHXYH xy h k => Sys2Proof.Machine.execLdXYHXYH xy h k s
  | .ldRAtXY xy r d => Sys2Proof.Machine.execLdRAtXY xy r d s
  | .ldAtXYR xy r' d => Sys2Proof.Machine.execLdAtXYR xy r' d s
  | .addAXYH xy h => Sys2Proof.Machine.execAddAXYH xy h s
  | .addAAtXY xy d => Sys2Proof.Machine.execAddAAtXY xy d s
  | .adcAXYH xy h => Sys2Proof.Machine.execAdcAXYH xy h s
  | .adcAAtXY xy d => Sys2Proof.Machine.execAdcAAtXY xy d s
  | .subXYH xy h => Sys2Proof.Machine.execSubXYH xy h s
  | .subAtXY xy d => Sys2Proof.Machine.execSubAtXY xy d s
  | .sbcAXYH xy h => Sys2Proof.Machine.execSbcAXYH xy h s
  | .sbcAAtXY xy d => Sys2Proof.Machine.execSbcAAtXY xy d s
  | .andXYH xy h => Sys2Proof.Machine.execAndXYH xy h s
  | .andAtXY xy d => Sys2Proof.Machine.execAndAtXY xy d s
  | .xorXYH xy h => Sys2Proof.Machine.execXorXYH xy h s
  | .xorAtXY xy d => Sys2Proof.Machine.execXorAtXY xy d s
  | .orXYH xy h => Sys2Proof.Machine.execOrXYH xy h s
  | .orAtXY xy d => Sys2Proof.Machine.execOrAtXY xy d s
  | .cpXYH xy h => Sys2Proof.Machine.execCpXYH xy h s
  | .cpAtXY xy d => Sys2Proof.Machine.execCpAtXY xy d s
  | .prefixXYCB xy => Sys2Proof.Machine.execPrefixXYCB xy s
  | .popXY xy => Sys2Proof.Machine.execPopXY xy s
  | .exSPXY xy => Sys2Proof.Machine.execExSPXY xy s
  | .pushXY xy => Sys2Proof.Machine.execPushXY xy s
  | .jpXY xy => Sys2Proof.Machine.execJpXY xy s
  | .ldSPXY xy => Sys2Proof.Machine.execLdSPXY xy s
  | .lonePrefix xy => Sys2Proof.Machine.execLonePrefix xy s
  | .rlcAtXY xy d => Sys2Proof.Machine.execRlcAtXY xy d s
  | .rlcAtXYR xy d r' => Sys2Proof.Machine.execRlcAtXYR xy d r' s
  | .rrcAtXY xy d => Sys2Proof.Machine.execRrcAtXY xy d s
  | .rrcAtXYR xy d r' => Sys2Proof.Machine.execRrcAtXYR xy d r' s
  | .rlAtXY xy d => Sys2Proof.Machine.execRlAtXY xy d s
  | .rlAtXYR xy d r' => Sys2Proof.Machine.execRlAtXYR xy d r' s
  | .rrAtXY xy d => Sys2Proof.Machine.execRrAtXY xy d s
  | .rrAtXYR xy d r' => Sys2Proof.Machine.execRrAtXYR xy d r' s
  | .slaAtXY xy d => Sys2Proof.Machine.execSlaAtXY xy d s
  | .slaAtXYR xy d r' => Sys2Proof.Machine.execSlaAtXYR xy d r' s
  | .sraAtXY xy d => Sys2Proof.Machine.execSraAtXY xy d s
  | .sraAtXYR xy d r' => Sys2Proof.Machine.execSraAtXYR xy d r' s
  | .sllAtXY xy d => Sys2Proof.Machine.execSllAtXY xy d s
  | .sllAtXYR xy d r' => Sys2Proof.Machine.execSllAtXYR xy d r' s
  | .srlAtXY xy d => Sys2Proof.Machine.execSrlAtXY xy d s
  | .srlAtXYR xy d r' => Sys2Proof.Machine.execSrlAtXYR xy d r' s
  | .bitAtXY xy d b z => Sys2Proof.Machine.execBitAtXY xy d b z s
  | .resAtXY xy d b => Sys2Proof.Machine.execResAtXY xy d b s
  | .resAtXYR xy d b r' => Sys2Proof.Machine.execResAtXYR xy d b r' s
  | .setAtXY xy d b => Sys2Proof.Machine.execSetAtXY xy d b s
  | .setAtXYR xy d b r' => Sys2Proof.Machine.execSetAtXYR xy d b r' s

end Sys2Proof.Machine
end

