-- ==== Sys2Proof/Machine/Step.lean ====
section
/-! DEFINITION. One step of the machine (rule R352), and the placing of an instruction where the next step fetches it. -/

namespace Sys2Proof.Machine

/-- One step: the instruction at PC, then the acceptance check (rule R352). -/
def step (s : State) : Host.Outcome State Fault Refusal :=
  match exec s.fetchInstr s with
  | .next s' => .next s'.acceptanceCheck
  | .fault r => .fault r
  | .refused r => .refused r

/-- The state with an instruction of spec/opcode_table.json at PC: the bytes of the word `w`, numbered as the table
numbers them (log 8), and zeros after them, four bytes in all. This is the host's load (log 7), so it writes ROM too. -/
def State.withFetchWord (s : State) (nbits w : Nat) : State :=
  match tableBytes nbits w with
  | [b0, b1, b2, b3] =>
    (((s.pokeByte s.pc b0).pokeByte (s.pc + 1) b1).pokeByte (s.pc + 2) b2).pokeByte (s.pc + 3) b3
  | _ => s

end Sys2Proof.Machine
end

