-- ==== Sys2Proof/Machine/HostInterface.lean ====
section
/-! DEFINITION. What the host does to the machine between steps (60_exceptions.md rules R370 to R374, 10_state.md rules R36
to R38, 70_reset_and_hazards.md rule R390): the register names, import and export, construction, the tracers, `run`. -/

namespace Sys2Proof.Machine

/-! ## Register names (rule R36) -/

/-- The names of the 8-bit slots (rule R36): `A` to `L`, the index halves, `I`, `R`, and the shadows `^A` to `^L`. -/
inductive SlotName where
  | a | f | b | c | d | e | h | l | ixh | ixl | iyh | iyl | i | r | sa | sf | sb | sc | sd | se | sh | sl
  deriving DecidableEq, Repr

/-- The names of the pairs (rule R36): `AF` to `IY` and the shadow pairs. -/
inductive PairName where
  | af | bc | de | hl | ix | iy | saf | sbc | sde | shl
  deriving DecidableEq, Repr

/-- A name of the table of rule R36. -/
inductive RegName where
  | slot (n : SlotName)
  | pair (n : PairName)
  | sp
  | pc
  | t
  deriving DecidableEq, Repr

/-- The symbolic name table, with the spellings of rule R36. -/
def nameTable : List (String × RegName) :=
  [("A", .slot .a), ("F", .slot .f), ("B", .slot .b), ("C", .slot .c), ("D", .slot .d), ("E", .slot .e), ("H", .slot .h),
    ("L", .slot .l), ("IXh", .slot .ixh), ("IXl", .slot .ixl), ("IYh", .slot .iyh), ("IYl", .slot .iyl), ("I", .slot .i),
    ("R", .slot .r), ("SP", .sp), ("PC", .pc), ("T", .t)] ++
  [("^A", .slot .sa), ("^F", .slot .sf), ("^B", .slot .sb), ("^C", .slot .sc), ("^D", .slot .sd), ("^E", .slot .se),
    ("^H", .slot .sh), ("^L", .slot .sl)] ++
  [("AF", .pair .af), ("BC", .pair .bc), ("DE", .pair .de), ("HL", .pair .hl), ("IX", .pair .ix), ("IY", .pair .iy),
    ("^AF", .pair .saf), ("^BC", .pair .sbc), ("^DE", .pair .sde), ("^HL", .pair .shl)]

/-- The register a name stands for; a name the table does not have stands for none. -/
def lookupName (name : String) : Option RegName := (nameTable.find? fun e => e.1 == name).map Prod.snd

/-! ## Import and export (rules R37 and R38) -/

/-- The value of an 8-bit slot. -/
def State.slot (s : State) : SlotName → Byte
  | .a => s.main.a
  | .f => s.main.f
  | .b => s.main.b
  | .c => s.main.c
  | .d => s.main.d
  | .e => s.main.e
  | .h => s.main.h
  | .l => s.main.l
  | .ixh => s.ixh
  | .ixl => s.ixl
  | .iyh => s.iyh
  | .iyl => s.iyl
  | .i => s.i
  | .r => s.r
  | .sa => s.shadow.a
  | .sf => s.shadow.f
  | .sb => s.shadow.b
  | .sc => s.shadow.c
  | .sd => s.shadow.d
  | .se => s.shadow.e
  | .sh => s.shadow.h
  | .sl => s.shadow.l

/-- An 8-bit slot replaced. -/
def State.setSlot (s : State) (n : SlotName) (v : Byte) : State :=
  match n with
  | .a => { s with main := { s.main with a := v } }
  | .f => { s with main := { s.main with f := v } }
  | .b => { s with main := { s.main with b := v } }
  | .c => { s with main := { s.main with c := v } }
  | .d => { s with main := { s.main with d := v } }
  | .e => { s with main := { s.main with e := v } }
  | .h => { s with main := { s.main with h := v } }
  | .l => { s with main := { s.main with l := v } }
  | .ixh => { s with ixh := v }
  | .ixl => { s with ixl := v }
  | .iyh => { s with iyh := v }
  | .iyl => { s with iyl := v }
  | .i => { s with i := v }
  | .r => { s with r := v }
  | .sa => { s with shadow := { s.shadow with a := v } }
  | .sf => { s with shadow := { s.shadow with f := v } }
  | .sb => { s with shadow := { s.shadow with b := v } }
  | .sc => { s with shadow := { s.shadow with c := v } }
  | .sd => { s with shadow := { s.shadow with d := v } }
  | .se => { s with shadow := { s.shadow with e := v } }
  | .sh => { s with shadow := { s.shadow with h := v } }
  | .sl => { s with shadow := { s.shadow with l := v } }

/-- The two slots of a pair, high and low (rule R22). -/
def PairName.slots : PairName → SlotName × SlotName
  | .af => (.a, .f)
  | .bc => (.b, .c)
  | .de => (.d, .e)
  | .hl => (.h, .l)
  | .ix => (.ixh, .ixl)
  | .iy => (.iyh, .iyl)
  | .saf => (.sa, .sf)
  | .sbc => (.sb, .sc)
  | .sde => (.sd, .se)
  | .shl => (.sh, .sl)

/-- What the host reads under a name (rule R38). -/
def State.regValue (s : State) : RegName → Nat
  | .slot n => (s.slot n).toNat
  | .pair n => (pair (s.slot n.slots.1) (s.slot n.slots.2)).toNat
  | .sp => s.sp.toNat
  | .pc => s.pc.toNat
  | .t => s.t

/-- What the host writes under a name (rule R37): an 8-bit slot mod 256, a 16-bit name mod 65536, a negative T becomes 0. -/
def State.importValue (s : State) (n : RegName) (v : Int) : State :=
  match n with
  | .slot n => s.setSlot n (BitVec.ofInt 8 v)
  | .pair n =>
    (s.setSlot n.slots.1 (hiByte (BitVec.ofInt 16 v))).setSlot n.slots.2 (loByte (BitVec.ofInt 16 v))
  | .sp => { s with sp := BitVec.ofInt 16 v }
  | .pc => { s with pc := BitVec.ofInt 16 v }
  | .t => { s with t := v.toNat }

/-- The one error of the host interface (rules R37, R38 and R350); no step raises it. -/
inductive HostError where
  /-- `UnknownRegister`: a name the table does not have. -/
  | unknownRegister (name : String)
  deriving DecidableEq, Repr

/-- The host's read of a register by name (rule R38): "unknown names are a caller error". -/
def State.readByName (s : State) (name : String) : Except HostError Nat :=
  match lookupName name with
  | some n => .ok (s.regValue n)
  | none => .error (.unknownRegister name)

/-- The host's write of a register by name, between runs (rules R37 and R374). -/
def State.writeByName (s : State) (name : String) (v : Int) : Except HostError State :=
  match lookupName name with
  | some n => .ok (s.importValue n v)
  | none => .error (.unknownRegister name)

/-! ## Construction (rule R390) -/

/-- `initial_state` (rule R37): what the caller gives of IM, IFF and T. -/
structure InitialState where
  im : Option Int
  iff : Option Int
  t : Option Int
  deriving DecidableEq, Repr

/-- An interrupt mode outside 0, 1, 2 becomes 1 (rule R37). -/
def IntMode.ofInt (v : Int) : IntMode := if v = 0 then .im0 else if v = 2 then .im2 else .im1

/-- `initial_state` applied, clamped as rule R37 says. -/
def State.applyInitial (s : State) (x : InitialState) : State :=
  { s with
    im := match x.im with
      | some v => IntMode.ofInt v
      | none => s.im,
    iff := match x.iff with
      | some v => v != 0
      | none => s.iff,
    t := match x.t with
      | some v => v.toNat
      | none => s.t }

/-- Whether a name is a pair's; pair names are imported before single names (rule R390). -/
def isPairName (name : String) : Bool :=
  match lookupName name with
  | some (.pair _) => true
  | _ => false

/-- A list of imports, one after the other; the first unknown name fails. -/
def State.importAll (s : State) : List (String × Int) → Except HostError State
  | [] => .ok s
  | (name, v) :: rest =>
    match s.writeByName name v with
    | .ok s' => s'.importAll rest
    | .error e => .error e

/-- `new(memory, initial_registers?, initial_state?, config?)` (rule R390), in its six points: the caller's memory as it is,
the construction values of R39, the registers with pair names first, the initial state, the configuration, no tracer. -/
def construct (memory : Memory) (regs : List (String × Int)) (init : InitialState) (cfg : Config) : Except HostError State :=
  let s := { State.reset with mem := memory, cfg := cfg }
  match s.importAll (regs.filter (fun e => isPairName e.1) ++ regs.filter (fun e => !isPairName e.1)) with
  | .ok s' => .ok (s'.applyInitial init)
  | .error e => .error e

/-! ## The tracers and `run` (rules R371 to R374) -/

/-- `set_tracer`, the read-port capability: none, or one whose next answers are listed (rule R374, log 3). The write-port
capability changes nothing in the core (R65); the instruction-trace capability is an argument of `run`. -/
def State.setReadPort (s : State) (answers : Option (List Byte)) : State := { s with readPort := answers }

/-- What the instruction-trace capability returns (rule R372). -/
inductive TraceAnswer where
  | stop | continue
  deriving DecidableEq, Repr

/-- How a `run` ended. -/
inductive RunEnd where
  /-- It returned to the host in this state. -/
  | returned (s : State)
  /-- The step bound of the model was reached (rule R373): the hardware would go on. -/
  | outOfFuel (s : State)
  /-- A step faulted or refused; no step of this machine does (rule R350). -/
  | stopped
  deriving DecidableEq, Repr

/-- The loop of `run` (rule R371): a step, the trace callback, the stop test. The callback sees the whole state after every
step and may change it (rule R370). -/
def runLoop (trace : State → State × TraceAnswer) (stop : Option Word) : Nat → State → RunEnd
  | 0, s => .outOfFuel s
  | fuel + 1, s =>
    match step s with
    | .next s' =>
      match trace s' with
      | (s'', .stop) => .returned s''
      | (s'', .continue) =>
        match stop with
        | none => .returned s''
        | some a => if s''.pc = a then .returned s'' else runLoop trace stop fuel s''
    | .fault _ => .stopped
    | .refused _ => .stopped

/-- No instruction-trace capability: "a neutral no-op" (rule R374). -/
def noTrace (s : State) : State × TraceAnswer := (s, .continue)

/-- `run(start?, stop?)` (rule R371), `start` taken mod 65536, bounded by a number of steps (rule R373). -/
def run (trace : State → State × TraceAnswer) (fuel : Nat) (start : Option Int) (stop : Option Word) (s : State) : RunEnd :=
  match start with
  | some a => runLoop trace stop fuel { s with pc := BitVec.ofInt 16 a }
  | none => runLoop trace stop fuel s

end Sys2Proof.Machine
end

