-- ==== Sys2Proof/Safety.lean ====
section
/-! DEFINITION. What counts as a safe state and the vocabulary the claims are stated in: the invariant, the bookkeeping an
instruction leaves, flags bit by bit, stores byte by byte, conditions, port answers. It is written in the spec's terms (bits of
F, natural numbers, single bytes), not in those of the operations the meanings are built from. -/

namespace Sys2Proof.Machine

/-- What every reachable state has: canonical memory, a legal configuration (R8), PC on a HALT opcode while halted (R357),
and IFF set right after EI (R333). -/
structure State.Inv (s : State) : Prop where
  memWf : s.mem.wf = true
  cfgWf : s.cfg.wf = true
  haltedOnHalt : s.last = .halted → s.readByte s.pc = 0x76
  eiEnables : s.last = .ei → s.iff = true

/-- `s` with the fields every instruction writes (PC, R, T, LAST) taken from `t`: `t = { s.clocked t with x := t.x }` says
that an instruction changed nothing else but the fields named. -/
def State.clocked (s t : State) : State := { s with pc := t.pc, r := t.r, t := t.t, last := t.last }

/-- R counted on by `n` in its low 7 bits with bit 7 kept (R84). -/
structure CountedR (s t : State) (n : Nat) : Prop where
  bit7 : t.r.getLsbD 7 = s.r.getLsbD 7
  low7 : t.r.toNat % 128 = (s.r.toNat + n) % 128

/-- The common bookkeeping of an instruction that goes to `target` (R83 to R86): R counted by `rinc`, `ts` T-states charged,
LAST = OTHER. -/
structure Bookkept (s t : State) (rinc ts : Nat) (target : Word) : Prop where
  pc : t.pc = target
  time : t.t = s.t + ts
  counted : CountedR s t rinc
  last : t.last = .other

/-- The eight flags of a flag byte, from bit 7 down (R24). -/
structure FlagsAre (f : Byte) (S Z F5 H F3 PV N C : Bool) : Prop where
  bitS : f.getLsbD 7 = S
  bitZ : f.getLsbD 6 = Z
  bit5 : f.getLsbD 5 = F5
  bitH : f.getLsbD 4 = H
  bit3 : f.getLsbD 3 = F3
  bitPV : f.getLsbD 2 = PV
  bitN : f.getLsbD 1 = N
  bitC : f.getLsbD 0 = C

/-- Whether a byte has an even number of 1 bits: parity, P/V = 1 (R121). -/
def evenOnes (v : Byte) : Bool := (List.range 8).countP (fun k => v.getLsbD k) % 2 == 0

/-- Whether a value is outside the signed range −2^(w−1) .. 2^(w−1)−1: two's-complement overflow (R123). -/
def overflows (w : Nat) (x : Int) : Bool := decide (x < -(2 ^ (w - 1)) ∨ 2 ^ (w - 1) ≤ x)

/-- From `s` to `t` the byte `v` was stored at `a` and nowhere else: not even there if `a` is ROM (R51, R53). -/
structure StoredByte (s t : State) (a : Word) (v : Byte) : Prop where
  atAddr : t.readByte a = if a.toNat ≤ 0x3FFF then s.readByte a else v
  elsewhere : ∀ b : Word, b ≠ a → t.readByte b = s.readByte b

/-- From `s` to `t` the word `v` was stored at `a`, low byte first, each byte with its own ROM check (R53, R54), and nowhere
else. -/
structure StoredWord (s t : State) (a : Word) (v : Word) : Prop where
  low : t.readByte a = if a.toNat ≤ 0x3FFF then s.readByte a else v.setWidth 8
  high : t.readByte (a + 1) = if (a + 1).toNat ≤ 0x3FFF then s.readByte (a + 1) else (v >>> 8).setWidth 8
  elsewhere : ∀ b : Word, b ≠ a → b ≠ a + 1 → t.readByte b = s.readByte b

/-- `w` is the little-endian word at `a` in `s` (R54), the second address taken mod 65536 (R56). -/
def WordAt (s : State) (a w : Word) : Prop := w.toNat = (s.readByte (a + 1)).toNat * 256 + (s.readByte a).toNat

/-- The condition codes by the bits of F (R93). -/
def condTrue (f : Byte) (cc : Cond) : Bool :=
  match cc with
  | .nz => f.getLsbD 6 == false
  | .z => f.getLsbD 6 == true
  | .nc => f.getLsbD 0 == false
  | .c => f.getLsbD 0 == true
  | .po => f.getLsbD 2 == false
  | .pe => f.getLsbD 2 == true
  | .p => f.getLsbD 7 == false
  | .m => f.getLsbD 7 == true

/-- From `s` to `t` one read of port `p` gave `v` (R64): 255 with no capability; the next answer the host listed; or, past
the list, the free value, of which nothing is known. -/
def PortGave (s t : State) (p : Word) (v : Byte) : Prop :=
  (s.readPort = none ∧ t.readPort = none ∧ t.portReads = s.portReads ∧ v = 255) ∨
    (∃ rest, s.readPort = some (v :: rest) ∧ t.readPort = some rest ∧ t.portReads = s.portReads + 1) ∨
    (s.readPort = some [] ∧ t.readPort = some [] ∧ t.portReads = s.portReads + 1 ∧ v = Config.portAnswer s.portReads p)

/-! ## What an instruction did: results, flags and frame

Each of these says of a state `s` before an instruction and a state `t` after it what was written and, through
`t = { s.clocked t with … }`, that every other field of the state is as it was (R11). -/

/-- Register `r` took the value `v`; every other register, F among them, and everything else is unchanged. -/
structure LoadedReg (s t : State) (r : Reg8) (v : Byte) : Prop where
  got : t.reg r = v
  others : ∀ k, k ≠ r → t.reg k = s.reg k
  flagsKept : t.main.f = s.main.f
  frame : t = { s.clocked t with main := t.main }

/-- Pair `p` took the value `v`; the other pairs, A, F and everything else are unchanged. -/
structure LoadedPair (s t : State) (p : RegPair) (v : Word) : Prop where
  got : t.rp p = v
  others : ∀ q, q ≠ p → t.rp q = s.rp q
  accKept : t.main.a = s.main.a
  flagsKept : t.main.f = s.main.f
  frame : t = { s.clocked t with main := t.main, sp := t.sp }

/-- Index register `x` took the value `v`; the other one and everything else are unchanged. -/
structure LoadedXY (s t : State) (x : XY) (v : Word) : Prop where
  got : t.xy x = v
  other : ∀ y, y ≠ x → t.xy y = s.xy y
  frame : t = { s.clocked t with ixh := t.ixh, ixl := t.ixl, iyh := t.iyh, iyl := t.iyl }

/-- Index half `h` of `x` took the value `v`; the other three halves and everything else are unchanged. -/
structure LoadedHalf (s t : State) (x : XY) (h : Half) (v : Byte) : Prop where
  got : t.half x h = v
  others : ∀ y k, (y ≠ x ∨ k ≠ h) → t.half y k = s.half y k
  frame : t = { s.clocked t with ixh := t.ixh, ixl := t.ixl, iyh := t.iyh, iyl := t.iyl }

/-- The byte `v` was stored at `a`; every other byte and everything else is unchanged. -/
structure OnlyStoredByte (s t : State) (a : Word) (v : Byte) : Prop where
  stored : StoredByte s t a v
  frame : t = { s.clocked t with mem := t.mem }

/-- The word `v` was stored at `a`; every other byte and everything else is unchanged. -/
structure OnlyStoredWord (s t : State) (a v : Word) : Prop where
  stored : StoredWord s t a v
  frame : t = { s.clocked t with mem := t.mem }

/-- The word `v` was pushed: SP is 2 lower, the word stands there; everything else is unchanged (R57). -/
structure Pushed (s t : State) (v : Word) : Prop where
  sp : t.sp = s.sp - 2
  stored : StoredWord s t (s.sp - 2) v
  frame : t = { s.clocked t with mem := t.mem, sp := t.sp }

/-- Nothing but PC, T, R and LAST changed. -/
def OnlyClocked (s t : State) : Prop := t = s.clocked t

/-- Only A and F changed. -/
def OnlyAF (s t : State) : Prop := t = { s.clocked t with main := { s.main with a := t.main.a, f := t.main.f } }

/-- Only F changed. -/
def OnlyF (s t : State) : Prop := t = { s.clocked t with main := { s.main with f := t.main.f } }

/-- F of the sum `a + v + c` with result `r` (R121 to R124). -/
def SumFlags (a v : Byte) (c : Nat) (r f : Byte) : Prop :=
  FlagsAre f (r.getLsbD 7) (decide (r.toNat = 0)) (r.getLsbD 5) (decide (a.toNat % 16 + v.toNat % 16 + c > 15)) (r.getLsbD 3)
    (overflows 8 (a.toInt + v.toInt + c)) false (decide (a.toNat + v.toNat + c > 255))

/-- F of the difference `a - v - c` with result `r`; bits 5 and 3 are those of `u` (R121 to R123, R125, R126). -/
def DiffFlags (a v : Byte) (c : Nat) (r u f : Byte) : Prop :=
  FlagsAre f (r.getLsbD 7) (decide (r.toNat = 0)) (u.getLsbD 5) (decide (a.toNat % 16 < v.toNat % 16 + c)) (u.getLsbD 3)
    (overflows 8 (a.toInt - v.toInt - c)) true (decide (a.toNat < v.toNat + c))

/-- F of a logic result `r` (R127 to R129): H as given, P/V parity, N and C clear. -/
def LogicFlags (h : Bool) (r f : Byte) : Prop :=
  FlagsAre f (r.getLsbD 7) (decide (r.toNat = 0)) (r.getLsbD 5) h (r.getLsbD 3) (evenOnes r) false false

/-- F of a byte `r` that was read, rotated or loaded (R133, R148, R150): H and N clear, P/V parity, C as given. -/
def ParityFlags (r : Byte) (c : Bool) (f : Byte) : Prop :=
  FlagsAre f (r.getLsbD 7) (decide (r.toNat = 0)) (r.getLsbD 5) false (r.getLsbD 3) (evenOnes r) false c

/-- A took `a + v + c`, F its flags; nothing else changed (R124, R201, R202). -/
structure AddedToA (s t : State) (v : Byte) (c : Nat) : Prop where
  result : t.main.a.toNat = (s.main.a.toNat + v.toNat + c) % 256
  flags : SumFlags s.main.a v c t.main.a t.main.f
  frame : OnlyAF s t

/-- A took `a - v - c`, F its flags; nothing else changed (R125, R203, R204). -/
structure SubtractedFromA (s t : State) (v : Byte) (c : Nat) : Prop where
  result : (t.main.a.toNat : Int) = ((s.main.a.toNat : Int) - v.toNat - c) % 256
  flags : DiffFlags s.main.a v c t.main.a t.main.a t.main.f
  frame : OnlyAF s t

/-- F took the flags of `a - v` with bits 5 and 3 of `v`; A and everything else are unchanged (R126, R208). -/
structure ComparedWithA (s t : State) (v : Byte) : Prop where
  flags : ∀ r : Byte, (r.toNat : Int) = ((s.main.a.toNat : Int) - v.toNat) % 256 → DiffFlags s.main.a v 0 r v t.main.f
  frame : OnlyF s t

/-- A took, bit by bit, `op` of its own bits and those of `v`, F the logic flags; nothing else changed (R205 to R207). -/
structure LogicOnA (op : Bool → Bool → Bool) (h : Bool) (s t : State) (v : Byte) : Prop where
  result : ∀ k, k < 8 → t.main.a.getLsbD k = op (s.main.a.getLsbD k) (v.getLsbD k)
  flags : LogicFlags h t.main.a t.main.f
  frame : OnlyAF s t

/-- `w` is `v + 1` and `f'` its flags, C kept from `f` (R131). -/
structure Incremented (v w f f' : Byte) : Prop where
  result : w.toNat = (v.toNat + 1) % 256
  flags : FlagsAre f' (w.getLsbD 7) (decide (v.toNat = 255)) (w.getLsbD 5) (decide (v.toNat % 16 = 15)) (w.getLsbD 3)
    (decide (v.toNat = 127)) false (f.getLsbD 0)

/-- `w` is `v - 1` and `f'` its flags, C kept from `f` (R132). -/
structure Decremented (v w f f' : Byte) : Prop where
  result : w.toNat = (v.toNat + 255) % 256
  flags : FlagsAre f' (w.getLsbD 7) (decide (v.toNat = 1)) (w.getLsbD 5) (decide (v.toNat % 16 = 0)) (w.getLsbD 3)
    (decide (v.toNat = 128)) true (f.getLsbD 0)

/-- The result of a rotate or shift of the number `v` with carry in `c` (R133), in arithmetic. -/
def rotatedNat (k : RotKind) (v c : Nat) : Nat :=
  match k with
  | .rlc => 2 * v % 256 + v / 128
  | .rrc => v / 2 + 128 * (v % 2)
  | .rl => 2 * v % 256 + c
  | .rr => v / 2 + 128 * c
  | .sla => 2 * v % 256
  | .sra => v / 2 + 128 * (v / 128)
  | .sll => 2 * v % 256 + 1
  | .srl => v / 2

/-- The carry out of a rotate or shift of `v`: its highest bit to the left, its lowest to the right (R133). -/
def shiftedOut (k : RotKind) (v : Byte) : Bool :=
  match k with
  | .rlc | .rl | .sla | .sll => decide (128 ≤ v.toNat)
  | .rrc | .rr | .sra | .srl => decide (v.toNat % 2 = 1)

/-- `w` is the rotate or shift of `v` with the carry of `f` in, and `f'` its flags (R133). -/
structure Rotated (k : RotKind) (v w f f' : Byte) : Prop where
  result : w.toNat = rotatedNat k v.toNat (f.getLsbD 0).toNat
  flags : ParityFlags w (shiftedOut k v) f'

/-- `w` is `v` with bit `b` made `x`, and F is unchanged (R263 and R264). -/
structure BitWritten (b : BitVec 3) (x : Bool) (v w f f' : Byte) : Prop where
  bit : w.getLsbD b.toNat = x
  others : ∀ k, k < 8 → k ≠ b.toNat → w.getLsbD k = v.getLsbD k
  flagsKept : f' = f

/-- The register form of an operation `g v w f f'` (R249): `r` took w and F took f'; nothing else changed. -/
structure OnRegister (g : Byte → Byte → Byte → Byte → Prop) (s t : State) (r : Reg8) : Prop where
  did : g (s.reg r) (t.reg r) s.main.f t.main.f
  others : ∀ k, k ≠ r → t.reg k = s.reg k
  frame : t = { s.clocked t with main := t.main }

/-- The memory form of an operation `g v w f f'` at `a` (R249, R258): w was written through the ROM check, F took f'; nothing
else changed. -/
def OnMemory (g : Byte → Byte → Byte → Byte → Prop) (s t : State) (a : Word) : Prop :=
  ∃ w, g (s.readByte a) w s.main.f t.main.f ∧ StoredByte s t a w ∧
    t = { s.clocked t with mem := t.mem, main := { s.main with f := t.main.f } }

/-- The indexed form with register copy (R259): as the memory form, and register `r` took w too, ROM or not. -/
def OnMemoryAndCopy (g : Byte → Byte → Byte → Byte → Prop) (s t : State) (a : Word) (r : Reg8) : Prop :=
  ∃ w, g (s.readByte a) w s.main.f t.main.f ∧ StoredByte s t a w ∧ t.reg r = w ∧ (∀ k, k ≠ r → t.reg k = s.reg k) ∧
    t = { s.clocked t with mem := t.mem, main := t.main }

/-- F of a test of bit `b` of `v`, bits 5 and 3 taken from `u`, C kept from `f` (R136). -/
def BitTested (b : BitVec 3) (v u f f' : Byte) : Prop :=
  FlagsAre f' (decide (b.toNat = 7) && v.getLsbD 7) (!v.getLsbD b.toNat) (u.getLsbD 5) true (u.getLsbD 3)
    (!v.getLsbD b.toNat) false (f.getLsbD 0)

/-- What one step of a block transfer did (R277 and R278), moving by `d`. -/
structure BlockCopied (s t : State) (d : Int) : Prop where
  stored : StoredByte s t s.de (s.readByte s.hl)
  hl : (t.hl.toNat : Int) = (s.hl.toNat + d) % 65536
  de : (t.de.toNat : Int) = (s.de.toNat + d) % 65536
  bc : (t.bc.toNat : Int) = ((s.bc.toNat : Int) - 1) % 65536
  acc : t.main.a = s.main.a
  flags : FlagsAre t.main.f (s.main.f.getLsbD 7) (s.main.f.getLsbD 6) ((s.readByte s.hl + s.main.a).getLsbD 1) false
    ((s.readByte s.hl + s.main.a).getLsbD 3) (decide (t.bc.toNat ≠ 0)) false (s.main.f.getLsbD 0)
  frame : t = { s.clocked t with mem := t.mem, main := t.main }

/-- What one step of a block compare did (R281 and R282), moving by `d`: `r` is A − v, `n` is A − v − H. -/
structure BlockCompared (s t : State) (d : Int) : Prop where
  hl : (t.hl.toNat : Int) = (s.hl.toNat + d) % 65536
  bc : (t.bc.toNat : Int) = ((s.bc.toNat : Int) - 1) % 65536
  kept : t.de = s.de ∧ t.main.a = s.main.a
  flags : ∀ r n : Byte,
    (r.toNat : Int) = ((s.main.a.toNat : Int) - (s.readByte s.hl).toNat) % 256 →
    (n.toNat : Int) = ((r.toNat : Int) -
      (if s.main.a.toNat % 16 < (s.readByte s.hl).toNat % 16 then 1 else 0)) % 256 →
    FlagsAre t.main.f (r.getLsbD 7) (decide (s.main.a = s.readByte s.hl)) (n.getLsbD 1)
      (decide (s.main.a.toNat % 16 < (s.readByte s.hl).toNat % 16)) (n.getLsbD 3) (decide (t.bc.toNat ≠ 0)) true
      (s.main.f.getLsbD 0)
  frame : t = { s.clocked t with main := t.main }

/-- F of a block input or output step (R147): `v` the byte moved, `k` the instruction's sum, `b` the new B. -/
def BlockIOFlags (v : Byte) (k : Nat) (b f : Byte) : Prop :=
  FlagsAre f (b.getLsbD 7) (decide (b.toNat = 0)) (b.getLsbD 5) (decide (k > 255)) (b.getLsbD 3)
    (evenOnes (BitVec.ofNat 8 (k % 8) ^^^ b)) (v.getLsbD 7) (decide (k > 255))

/-- What one step of a block input did (R285 and R286), moving by `d`: a byte read from port B:C, B before its decrement, was
stored at HL. -/
def BlockInput (s t : State) (d : Int) : Prop :=
  ∃ v, PortGave s t s.bc v ∧ StoredByte s t s.hl v ∧
    (t.main.b.toNat : Int) = ((s.main.b.toNat : Int) - 1) % 256 ∧
    (t.hl.toNat : Int) = (s.hl.toNat + d) % 65536 ∧
    (∀ j : Nat, (j : Int) = ((s.main.c.toNat : Int) + d) % 256 → BlockIOFlags v (v.toNat + j) t.main.b t.main.f) ∧
    t = { s.clocked t with
      mem := t.mem, readPort := t.readPort, portReads := t.portReads,
      main := { s.main with b := t.main.b, h := t.main.h, l := t.main.l, f := t.main.f } }

/-- What one step of a block output did (R289 and R290), moving by `d`: the byte at HL went to port B:C, B after its
decrement. -/
structure BlockOutput (s t : State) (d : Int) : Prop where
  b : (t.main.b.toNat : Int) = ((s.main.b.toNat : Int) - 1) % 256
  hl : (t.hl.toNat : Int) = (s.hl.toNat + d) % 65536
  sent : ∀ p : Word, p.toNat = t.main.b.toNat * 256 + s.main.c.toNat →
    t.portWrites = s.portWrites ++ [⟨p, s.readByte s.hl⟩]
  flags : BlockIOFlags (s.readByte s.hl) ((s.readByte s.hl).toNat + t.main.l.toNat) t.main.b t.main.f
  frame : t = { s.clocked t with
    portWrites := t.portWrites,
    main := { s.main with b := t.main.b, h := t.main.h, l := t.main.l, f := t.main.f } }

/-- How a repeating block instruction ends one execution (R275): back at itself for 21 T-states where `again`, else past
itself for 16. -/
def RepeatsOrEnds (s t : State) (again : Prop) : Prop :=
  (again → Bookkept s t 2 21 s.pc) ∧ (¬ again → Bookkept s t 2 16 (s.pc + 2))

/-- The address of the branch `e` bytes past a 2-byte instruction at `pc` (R94 and R302). -/
def IsRelTarget (pc : Word) (e : Byte) (target : Word) : Prop := (target.toNat : Int) = (pc.toNat + 2 + e.toInt) % 65536

/-- The condition of the acceptance check, in arithmetic (R351, R353, R354). -/
def MayAccept (s : State) : Prop :=
  s.iff = true ∧ s.last ≠ .ei ∧ s.last ≠ .lonePrefix ∧ 0 < s.cfg.intActive ∧ s.t % s.cfg.frameDuration < s.cfg.intActive

/-- What accepting the interrupt did (R354 to R357), and that it changed nothing else. -/
structure Accepted (s t : State) : Prop where
  counted : CountedR s t 1
  sp : t.sp = s.sp - 2
  pushed : StoredWord s t (s.sp - 2) (if s.last = .halted then s.pc + 1 else s.pc)
  disabled : t.iff = false
  last : t.last = .other
  fixedVector : s.im ≠ .im2 → t.pc = 0x0038 ∧ t.t = s.t + 13
  tableVector : s.im = .im2 → WordAt t (BitVec.ofNat 16 (s.i.toNat * 256 + s.cfg.floatByte.toNat)) t.pc ∧ t.t = s.t + 19
  frame : t = { s.clocked t with mem := t.mem, sp := t.sp, iff := t.iff }

end Sys2Proof.Machine

/-! ## Which instructions write what -/

namespace Sys2Proof

/-- The rows whose bytes start with a CB, ED, DD or FD prefix and that are no lone prefix: R counts by 2 (R84). -/
def Instr.prefixed (i : Instr) : Bool :=
  match encode i with
  | b0 :: _ :: _ => b0 == 0xCB || b0 == 0xED || b0 == 0xDD || b0 == 0xFD
  | _ => false

/-- The instructions that read a port (R63, R285 to R288, R293 to R295). -/
def Instr.readsPort : Instr → Bool
  | .inAN _ | .inRC _ | .inFC | .ini | .ind | .inir | .indr => true
  | _ => false

/-- The instructions that write a port (R63, R289 to R292, R296 to R298). -/
def Instr.writesPort : Instr → Bool
  | .outNA _ | .outCR _ | .outC0 | .outi | .outd | .otir | .otdr => true
  | _ => false

/-- The instructions that may write SP: the loads of SP, INC SP and DEC SP, and every push and pop (R26). -/
def Instr.mayWriteSP : Instr → Bool
  | .ldRpNn .sp _ | .ldRpAtNn .sp _ | .ldSPHL | .ldSPXY _ | .incRp .sp | .decRp .sp => true
  | .pushRp _ | .popRp _ | .pushXY _ | .popXY _ | .callNn _ | .callCcNn .. | .ret | .retCc _ | .rst _ | .retn _ | .reti =>
    true
  | _ => false

/-- The instructions that may write an index register or a half of one (R23, R95). -/
def Instr.mayWriteXY : Instr → Bool
  | .addXYRp .. | .ldXYNn .. | .incXY _ | .incXYH .. | .decXYH .. | .ldXYHN .. | .ldXYAtNn .. | .decXY _ | .ldXYHR ..
  | .ldXYHXYH .. | .popXY _ | .exSPXY _ => true
  | _ => false

/-- The instructions that R152 names as leaving F unchanged. -/
def Instr.leavesF : Instr → Bool
  | .ldRR .. | .ldRN .. | .ldRAtHL _ | .ldAtHLR _ | .ldAtHLN _ | .ldAInd _ | .ldIndA _ | .ldAAtNn _ | .ldAtNnA _ => true
  | .ldRpNn .. | .ldHLAtNn _ | .ldAtNnHL _ | .ldRpAtNn .. | .ldAtNnRp .. | .ldSPHL | .ldIA | .ldRA => true
  | .ldRXYH .. | .ldXYHR .. | .ldXYHXYH .. | .ldXYHN .. | .ldRAtXY .. | .ldAtXYR .. | .ldAtXYN .. | .ldXYNn ..
  | .ldXYAtNn .. | .ldAtNnXY .. | .ldSPXY _ => true
  | .incRp _ | .decRp _ | .incXY _ | .decXY _ | .pushRp _ | .pushXY _ | .popXY _ => true
  | .popRp p => p != .af
  | .exDEHL | .exx | .exSPHL | .exSPXY _ => true
  | .jpNn _ | .jpCcNn .. | .jr _ | .jrCc .. | .jpHL | .jpXY _ | .djnz _ | .callNn _ | .callCcNn .. | .ret | .retCc _
  | .rst _ => true
  | .inAN _ | .outNA _ | .outCR _ | .outC0 => true
  | .resR .. | .resAtHL _ | .resAtXY .. | .resAtXYR .. | .setR .. | .setAtHL _ | .setAtXY .. | .setAtXYR .. => true
  | .nop | .halt | .di | .ei | .im0 _ | .im1 _ | .im2 _ | .retn _ | .reti => true
  | .nopED77 | .nopED7F | .nopEDLow _ | .nopEDHigh _ | .nopEDMid _ | .lonePrefix _ => true
  | _ => false

/-- The instructions whose operation sets PC (R85): jumps, calls, returns, the repeating block instructions and HALT. -/
def Instr.setsPC : Instr → Bool
  | .jpNn _ | .jpCcNn .. | .jr _ | .jrCc .. | .jpHL | .jpXY _ | .djnz _ | .callNn _ | .callCcNn .. | .ret | .retCc _
  | .rst _ | .retn _ | .reti => true
  | .ldir | .lddr | .cpir | .cpdr | .inir | .indr | .otir | .otdr | .halt => true
  | _ => false

/-- The eight repeating block instructions (R275). -/
def Instr.repeating : Instr → Bool
  | .ldir | .lddr | .cpir | .cpdr | .inir | .indr | .otir | .otdr => true
  | _ => false

end Sys2Proof
end

