-- ==== Sys2Proof/Certificates/Slice0/Obligations.lean ====
section
/-! DEFINITION. The statements for the provers. Each says what an instruction or the machine does in the vocabulary of
Safety.lean: `exec i s` answers a next state `t`, what `t` holds, and that nothing else changed. The hypothesis
`s.mem.wf`, where a statement reads memory after a store, is the invariant that `StepKeepsInv` keeps. -/

section Statements

open Sys2Proof Sys2Proof.Machine

/-! ## Encoding -/

/-- Decoding an encoded well-formed instruction gives it back and leaves the bytes after it (R80 to R101), a lone prefix
standing before a byte outside INDEX_SET (R90). -/
def Obligations.DecodeOfEncode : Prop :=
  ∀ (i : Instr) (rest : List Byte), i.wf = true →
    (∀ x, i = .lonePrefix x → ∃ b tail, rest = b :: tail ∧ b ∉ indexSet) → decode (encode i ++ rest) = .ok (i, rest)

/-- The bytes of the instruction a decoding gives are the bytes it was decoded from (R82, R97 to R101). -/
def Obligations.EncodeOfDecode : Prop :=
  ∀ b0 b1 b2 b3 : Byte,
    encode (decode4 b0 b1 b2 b3) = [b0, b1, b2, b3].take (decode4 b0 b1 b2 b3).length ∧
      (decode4 b0 b1 b2 b3).length = (encode (decode4 b0 b1 b2 b3)).length

/-- Every byte sequence decodes, and to a well-formed instruction (R82, R102). A DD or FD is a lone prefix exactly when the
next byte is none of the 86 of INDEX_SET (R89, R90), and nothing else is one. -/
def Obligations.EveryByteSequenceDecodes : Prop :=
  (∀ b0 b1 b2 b3 : Byte, (decode4 b0 b1 b2 b3).wf = true) ∧
    (∀ (b0 b1 b2 b3 : Byte) (rest : List Byte), ∃ i tail, decode (b0 :: b1 :: b2 :: b3 :: rest) = .ok (i, tail) ∧
      i = decode4 b0 b1 b2 b3) ∧
  indexSet.length = 86 ∧ indexSet.Nodup ∧
    (∀ b1 b2 b3 : Byte, decode4 0xDD b1 b2 b3 = .lonePrefix .ix ↔ b1 ∉ indexSet) ∧
    (∀ b1 b2 b3 : Byte, decode4 0xFD b1 b2 b3 = .lonePrefix .iy ↔ b1 ∉ indexSet) ∧
    ∀ (b0 b1 b2 b3 : Byte) (x : XY), decode4 b0 b1 b2 b3 = .lonePrefix x → b0 = x.code

/-- Words written out from the encodings of R97 to R101, one or more of each family. -/
def Obligations.SampleWordsDecode : Prop :=
  decode [0x78] = .ok (.ldRR .a .b, []) ∧
  decode [0x31, 0x34, 0x12] = .ok (.ldRpNn .sp 0x1234, []) ∧
  decode [0xDD, 0x7E, 0xFE] = .ok (.ldRAtXY .ix .a 0xFE, []) ∧
  decode [0xD6, 0x21] = .ok (.subN 0x21, []) ∧
  decode [0xED, 0x52] = .ok (.sbcHLRp .de, []) ∧
  decode [0xFD, 0x35, 0xF0] = .ok (.decAtXY .iy 0xF0, []) ∧
  decode [0xCB, 0x5E] = .ok (.bitAtHL 3, []) ∧
  decode [0xDD, 0xCB, 0x02, 0x00] = .ok (.rlcAtXYR .ix 2 .b, []) ∧
  decode [0xED, 0xB0] = .ok (.ldir, []) ∧
  decode [0xED, 0x79] = .ok (.outCR .a, []) ∧
  decode [0xC4, 0x00, 0x90] = .ok (.callCcNn .nz 0x9000, []) ∧
  decode [0xFF] = .ok (.rst 7, []) ∧
  decode [0xD9] = .ok (.exx, []) ∧
  decode [0x76] = .ok (.halt, []) ∧
  decode [0xED, 0x5E] = .ok (.im2 3, []) ∧
  decode [0xDD, 0xED, 0x44] = .ok (.lonePrefix .ix, [0xED, 0x44])

/-! ## The step -/

/-- A step whose bytes at PC are those of a well-formed instruction runs that instruction and then the acceptance check
(R60, R82, R352); the bytes are read from PC on, mod 65536 (R85). -/
def Obligations.StepRunsTheDecodedInstruction : Prop :=
  ∀ (i : Instr) (s : State), i.wf = true →
    (∀ k, k < i.length → (encode i)[k]? = some (s.readByte (s.pc + BitVec.ofNat 16 k))) →
    (∀ x, i = .lonePrefix x → s.readByte (s.pc + 1) ∉ indexSet) →
    (∀ t, exec i s = .next t → step s = .next t.acceptanceCheck) ∧
      (∀ f, exec i s = .fault f → step s = .fault f) ∧ (∀ r, exec i s = .refused r → step s = .refused r)

/-- No instruction and no step stops: the core raises no exception (R350, R102). A progress statement. That it also
ranges over the prefix rows as terms of their own (log 9) and over terms that are not well-formed (log 18, DESIGN CHOICE) is
the model's, not R350's. -/
def Obligations.EveryInstructionAndEveryStepGoesOn : Prop :=
  (∀ (i : Instr) (s : State), ∃ t, exec i s = .next t) ∧ ∀ s : State, ∃ t, step s = .next t

/-- What construction without arguments leaves (R39). The last clause, an empty port-write history, is the model's choice
(log 5, DESIGN CHOICE) and no row of R39; the memory and the configuration are not R39's either (logs 1 and 2) and are not
stated. -/
def Obligations.ResetValues : Prop :=
  (∀ r, State.reset.reg r = 0 ∧ State.reset.shadow.get r = 0) ∧ State.reset.main.f = 0 ∧ State.reset.shadow.f = 0 ∧
  (∀ x h, State.reset.half x h = 0) ∧ State.reset.sp = 0 ∧ State.reset.i = 0 ∧ State.reset.r = 0 ∧ State.reset.pc = 0 ∧
  State.reset.t = 0 ∧ State.reset.iff = false ∧ State.reset.im = .im1 ∧ State.reset.last = .other ∧
  State.reset.readPort = none ∧ State.reset.portWrites = []

/-- The invariant holds after reset. LAST = OTHER is R39's; that memory is canonical rests on log 2 (nothing listed) and that
the configuration is legal on log 1 (the example values), both DESIGN CHOICE: the spec leaves memory and configuration to the
caller. -/
def Obligations.ResetInv : Prop := State.reset.Inv

/-- Every step keeps the invariant: canonical memory, a legal configuration, PC on a HALT opcode while halted (R357), IFF
set right after EI (R333). -/
def Obligations.StepKeepsInv : Prop :=
  ∀ s t : State, s.Inv → step s = .next t → t.Inv

/-- No instruction and no accepted interrupt changes a byte of ROM (R51), whatever it writes. -/
def Obligations.RomNeverChanges : Prop :=
  ∀ s : State, s.mem.wf = true →
    (∀ (i : Instr) (t : State), exec i s = .next t → ∀ a : Word, a.toNat ≤ 0x3FFF → t.readByte a = s.readByte a) ∧
    (∀ a : Word, a.toNat ≤ 0x3FFF → s.acceptanceCheck.readByte a = s.readByte a) ∧
    (∀ t, step s = .next t → ∀ a : Word, a.toNat ≤ 0x3FFF → t.readByte a = s.readByte a)

/-- T grows at every step (R31), by 4 to 23 for the instruction and 13 or 19 for an accepted interrupt (R354, R396).
For a prefix row or an ill-formed term as an instruction of its own the bounds are the model's (logs 9 and 18). -/
def Obligations.TimeAdvances : Prop :=
  (∀ (i : Instr) (s t : State), exec i s = .next t → s.t + 4 ≤ t.t ∧ t.t ≤ s.t + 23) ∧
    ∀ s t : State, step s = .next t → s.t + 4 ≤ t.t ∧ t.t ≤ s.t + 42

/-- Who writes what, over all instructions: I only `LD I,A` (R28), IM only `IM n` (R33), IFF only EI and DI (R32), the
shadow registers only `EX AF,AF′` and EXX (R30), SP only the instructions of R26, an index register only DD/FD forms (R23),
the port state only IN and OUT instructions (R63). The read port's form and its counter are the model's (logs 3 and 4). -/
def Obligations.OnlyTheNamedInstructionsWrite : Prop :=
  ∀ (i : Instr) (s t : State), i.wf = true → exec i s = .next t →
    (i ≠ .ldIA → t.i = s.i) ∧
    ((∀ y, i ≠ .im0 y ∧ i ≠ .im1 y ∧ i ≠ .im2 y) → t.im = s.im) ∧
    (i ≠ .ei → i ≠ .di → t.iff = s.iff) ∧
    (i ≠ .exAfAf → i ≠ .exx → t.shadow = s.shadow) ∧
    (i.mayWriteSP = false → t.sp = s.sp) ∧
    (i.mayWriteXY = false → ∀ x, t.xy x = s.xy x) ∧
    (i.readsPort = false → t.readPort = s.readPort ∧ t.portReads = s.portReads) ∧
    (i.writesPort = false → t.portWrites = s.portWrites)

/-- The instructions R152 lists, and interrupt acceptance, leave F unchanged. Ill-formed terms of those
constructors are the model's (log 18). -/
def Obligations.OtherInstructionsLeaveF : Prop :=
  (∀ (i : Instr) (s t : State), i.leavesF = true → exec i s = .next t → t.main.f = s.main.f) ∧
    (∀ s t : State, exec .exAfAf s = .next t → t.main.f = s.shadow.f ∧ t.shadow.f = s.main.f) ∧
    ∀ s : State, s.acceptanceCheck.main.f = s.main.f

/-- LAST after an instruction (R34): EI after EI, PREFIX after a lone prefix, HALTED after a HALT that left PC at PC0, OTHER
after every other one. -/
def Obligations.LastAfterAnInstruction : Prop :=
  ∀ (i : Instr) (s t : State), i.wf = true → exec i s = .next t →
    (t.last = .ei ↔ i = .ei) ∧ (t.last = .lonePrefix ↔ ∃ x, i = .lonePrefix x) ∧
      (t.last = .halted ↔ i = .halt ∧ t.pc = s.pc)

/-- R is counted by 2 for a CB, ED, DD or FD prefixed instruction and by 1 for any other, bit 7 kept (R84); `LD R,A` counts
too, and then writes R whole (R178). Interrupt acceptance adds 1. -/
def Obligations.RefreshCounter : Prop :=
  (∀ (i : Instr) (s t : State), i.wf = true → i ≠ .ldRA → exec i s = .next t →
    CountedR s t (if i.prefixed then 2 else 1)) ∧
  ∀ s : State, MayAccept s → CountedR s s.acceptanceCheck 1

/-- PC after an instruction is PC0 plus its length, mod 65536, unless its operation sets PC (R85): for every well-formed
instruction but the jumps, calls, returns, the repeating forms and HALT. `Fetch(k)` wraps. -/
def Obligations.SequentialPC : Prop :=
  (∀ (i : Instr) (s t : State), i.wf = true → i.setsPC = false → exec i s = .next t →
    t.pc.toNat = (s.pc.toNat + i.length) % 65536) ∧
  ∀ (s : State) (k : Nat), s.fetch k = s.readByte (BitVec.ofNat 16 ((s.pc.toNat + k) % 65536))

/-- No step writes the configuration (R40), and the two fast-path switches change nothing else (R397). -/
def Obligations.ConfigurationIsNotState : Prop :=
  (∀ s t : State, step s = .next t → t.cfg = s.cfg) ∧
    ∀ (s t : State) (a b : Bool), step s = .next t →
      step { s with cfg := { s.cfg with fastDjnz := a, fastLdir := b } } =
        .next { t with cfg := { t.cfg with fastDjnz := a, fastLdir := b } }

/-- A prefix row runs the entry its table has for the bytes after it (R82, R96), in every state; where the bytes at PC start
with the prefix, that is the instruction at PC. The meaning of a prefix row as an `Instr` of its own is the model's
(log 9). -/
def Obligations.PrefixRowsRunTheirTables : Prop :=
  ∀ s : State,
    (∃ t, exec .prefixCB s = .next t ∧ exec (decodeCB (s.fetch 1)) s = .next t) ∧
    (∃ t, exec .prefixED s = .next t ∧ exec (decodeED (s.fetch 1) (s.fetch 2) (s.fetch 3)) s = .next t) ∧
    (∃ t, exec .prefixDD s = .next t ∧ exec (decodeXY .ix (s.fetch 1) (s.fetch 2) (s.fetch 3)) s = .next t) ∧
    (∃ t, exec .prefixFD s = .next t ∧ exec (decodeXY .iy (s.fetch 1) (s.fetch 2) (s.fetch 3)) s = .next t) ∧
    (∀ x, ∃ t, exec (.prefixXYCB x) s = .next t ∧ exec (decodeXYCB x (s.fetch 2) (s.fetch 3)) s = .next t) ∧
    (s.fetch 0 = 0xCB → exec s.fetchInstr s = exec .prefixCB s) ∧
    (s.fetch 0 = 0xED → exec s.fetchInstr s = exec .prefixED s) ∧
    (s.fetch 0 = 0xDD → exec s.fetchInstr s = exec .prefixDD s) ∧
    (s.fetch 0 = 0xFD → exec s.fetchInstr s = exec .prefixFD s) ∧
    ∀ x, s.fetch 0 = x.code → s.fetch 1 = 0xCB → exec s.fetchInstr s = exec (.prefixXYCB x) s

/-! ## Memory and register pairs -/

/-- A read returns what the last write stored there, a write changes no other byte and nothing but memory, and a write to
ROM is discarded (R52, R53). That the canonical form is kept, and that canonical memories that read alike are equal, are
clauses about the model's representation of R50's array (log 2, DESIGN CHOICE), not of R52 or R53. -/
def Obligations.ReadAfterWrite : Prop :=
  (∀ (s : State) (a : Word) (v : Byte), s.mem.wf = true →
    (∀ b : Word, (s.writeByte a v).readByte b = if b = a ∧ 0x3FFF < a.toNat then v else s.readByte b) ∧
      s.writeByte a v = { s with mem := (s.writeByte a v).mem } ∧ (s.writeByte a v).mem.wf = true) ∧
  ∀ m n : Memory, m.wf = true → n.wf = true → (∀ a : Word, m.get a.toNat = n.get a.toNat) → m = n

/-- A 16-bit access is two bytes, the low one first, the second address taken mod 65536 (R54 to R56): a word stored at
0xFFFF loses its high byte to ROM. -/
def Obligations.WordsAreLittleEndianAndWrap : Prop :=
  (∀ (s : State) (a : Word), WordAt s a (s.readWord a)) ∧
  (∀ (s : State) (a v : Word), s.mem.wf = true → StoredWord s (s.writeWord a v) a v) ∧
  (∀ (s : State) (v : Word), s.mem.wf = true →
    (s.writeWord 0xFFFF v).readByte 0xFFFF = v.setWidth 8 ∧ (s.writeWord 0xFFFF v).readByte 0 = s.readByte 0) ∧
  ∀ (s : State) (x : XY) (d : Byte), ((s.ea x d).toNat : Int) = ((s.xy x).toNat + d.toInt) % 65536

/-- A pair is its two halves, `high*256 + low`; writing a pair writes both halves of the value, and writing a half changes
the pair (R22). IX and IY are built so from halves that are addressable by themselves (R23). -/
def Obligations.PairsAreTheirHalves : Prop :=
  (∀ g : RegSet,
    g.bc.toNat = g.b.toNat * 256 + g.c.toNat ∧ g.de.toNat = g.d.toNat * 256 + g.e.toNat ∧
    g.hl.toNat = g.h.toNat * 256 + g.l.toNat ∧ g.af.toNat = g.a.toNat * 256 + g.f.toNat) ∧
  (∀ (g : RegSet) (v : Word),
    (g.setBC v = { g with b := BitVec.ofNat 8 (v.toNat / 256), c := BitVec.ofNat 8 (v.toNat % 256) }) ∧
    (g.setDE v = { g with d := BitVec.ofNat 8 (v.toNat / 256), e := BitVec.ofNat 8 (v.toNat % 256) }) ∧
    (g.setHL v = { g with h := BitVec.ofNat 8 (v.toNat / 256), l := BitVec.ofNat 8 (v.toNat % 256) }) ∧
    (g.setAF v = { g with a := BitVec.ofNat 8 (v.toNat / 256), f := BitVec.ofNat 8 (v.toNat % 256) })) ∧
  (∀ (g : RegSet) (v : Byte),
    (g.set .b v).bc.toNat = v.toNat * 256 + g.c.toNat ∧ (g.set .c v).bc.toNat = g.b.toNat * 256 + v.toNat ∧
    (g.set .d v).de.toNat = v.toNat * 256 + g.e.toNat ∧ (g.set .e v).de.toNat = g.d.toNat * 256 + v.toNat ∧
    (g.set .h v).hl.toNat = v.toNat * 256 + g.l.toNat ∧ (g.set .l v).hl.toNat = g.h.toNat * 256 + v.toNat) ∧
  (∀ (s : State) (x : XY), (s.xy x).toNat = (s.half x .hi).toNat * 256 + (s.half x .lo).toNat) ∧
  (∀ (s : State) (x : XY) (v : Word), LoadedXY s (s.setXY x v) x v) ∧
  (∀ (s : State) (x : XY) (h : Half) (v : Byte), LoadedHalf s (s.setHalf x h v) x h v) ∧
  ∀ (s : State) (x : XY) (v : Byte),
    ((s.setHalf x .hi v).xy x).toNat = v.toNat * 256 + (s.half x .lo).toNat ∧
      ((s.setHalf x .lo v).xy x).toNat = (s.half x .hi).toNat * 256 + v.toNat

/-! ## Loads -/

/-- The 8-bit loads into a register or an index half (R160 to R162, R165, R167, R181 to R183): the destination takes the
operand, read before it is written; no flag, no other register and no other half changes. R181 gives `LD r,XYh/XYl` and
`LD XYh/XYl,r` no r = H and no r = L: for those two terms, which nothing decodes to, the clause is the model's (log 18, DESIGN
CHOICE). -/
def Obligations.ByteLoads : Prop :=
  ∀ s : State,
    (∀ r r', ∃ t, exec (.ldRR r r') s = .next t ∧ Bookkept s t 1 4 (s.pc + 1) ∧ LoadedReg s t r (s.reg r')) ∧
    (∀ r n, ∃ t, exec (.ldRN r n) s = .next t ∧ Bookkept s t 1 7 (s.pc + 2) ∧ LoadedReg s t r n) ∧
    (∀ r, ∃ t, exec (.ldRAtHL r) s = .next t ∧ Bookkept s t 1 7 (s.pc + 1) ∧ LoadedReg s t r (s.readByte s.hl)) ∧
    (∃ t, exec (.ldAInd .bc) s = .next t ∧ Bookkept s t 1 7 (s.pc + 1) ∧ LoadedReg s t .a (s.readByte s.bc)) ∧
    (∃ t, exec (.ldAInd .de) s = .next t ∧ Bookkept s t 1 7 (s.pc + 1) ∧ LoadedReg s t .a (s.readByte s.de)) ∧
    (∀ nn, ∃ t, exec (.ldAAtNn nn) s = .next t ∧ Bookkept s t 1 13 (s.pc + 3) ∧ LoadedReg s t .a (s.readByte nn)) ∧
    (∀ x r h, ∃ t, exec (.ldRXYH x r h) s = .next t ∧ Bookkept s t 2 8 (s.pc + 2) ∧ LoadedReg s t r (s.half x h)) ∧
    (∀ x r d, ∃ t, exec (.ldRAtXY x r d) s = .next t ∧ Bookkept s t 2 19 (s.pc + 3) ∧
      LoadedReg s t r (s.readByte (s.ea x d))) ∧
    (∀ x h r, ∃ t, exec (.ldXYHR x h r) s = .next t ∧ Bookkept s t 2 8 (s.pc + 2) ∧ LoadedHalf s t x h (s.reg r)) ∧
    (∀ x h k, ∃ t, exec (.ldXYHXYH x h k) s = .next t ∧ Bookkept s t 2 8 (s.pc + 2) ∧ LoadedHalf s t x h (s.half x k)) ∧
    (∀ x h n, ∃ t, exec (.ldXYHN x h n) s = .next t ∧ Bookkept s t 2 11 (s.pc + 3) ∧ LoadedHalf s t x h n)

/-- The 8-bit stores (R163, R164, R166, R168, R184, R185): the byte at the operand's address, unless it is ROM, takes the
value; every other byte, every register and every flag is unchanged. -/
def Obligations.ByteStores : Prop :=
  ∀ s : State, s.mem.wf = true →
    (∀ r, ∃ t, exec (.ldAtHLR r) s = .next t ∧ Bookkept s t 1 7 (s.pc + 1) ∧ OnlyStoredByte s t s.hl (s.reg r)) ∧
    (∀ n, ∃ t, exec (.ldAtHLN n) s = .next t ∧ Bookkept s t 1 10 (s.pc + 2) ∧ OnlyStoredByte s t s.hl n) ∧
    (∃ t, exec (.ldIndA .bc) s = .next t ∧ Bookkept s t 1 7 (s.pc + 1) ∧ OnlyStoredByte s t s.bc s.main.a) ∧
    (∃ t, exec (.ldIndA .de) s = .next t ∧ Bookkept s t 1 7 (s.pc + 1) ∧ OnlyStoredByte s t s.de s.main.a) ∧
    (∀ nn, ∃ t, exec (.ldAtNnA nn) s = .next t ∧ Bookkept s t 1 13 (s.pc + 3) ∧ OnlyStoredByte s t nn s.main.a) ∧
    (∀ x r d, ∃ t, exec (.ldAtXYR x r d) s = .next t ∧ Bookkept s t 2 19 (s.pc + 3) ∧
      OnlyStoredByte s t (s.ea x d) (s.reg r)) ∧
    (∀ x d n, ∃ t, exec (.ldAtXYN x d n) s = .next t ∧ Bookkept s t 2 19 (s.pc + 4) ∧
      OnlyStoredByte s t (s.ea x d) n)

/-- The 16-bit loads into a pair, SP or an index register (R169, R170, R172, R174, R186, R187, R189). -/
def Obligations.WordLoads : Prop :=
  ∀ s : State,
    (∀ p nn, ∃ t, exec (.ldRpNn p nn) s = .next t ∧ Bookkept s t 1 10 (s.pc + 3) ∧ LoadedPair s t p nn) ∧
    (∀ nn, ∃ t w, exec (.ldHLAtNn nn) s = .next t ∧ Bookkept s t 1 16 (s.pc + 3) ∧ WordAt s nn w ∧
      LoadedPair s t .hl w) ∧
    (∀ p nn, ∃ t w, exec (.ldRpAtNn p nn) s = .next t ∧ Bookkept s t 2 20 (s.pc + 4) ∧ WordAt s nn w ∧
      LoadedPair s t p w) ∧
    (∃ t, exec .ldSPHL s = .next t ∧ Bookkept s t 1 6 (s.pc + 1) ∧ LoadedPair s t .sp s.hl) ∧
    (∀ x nn, ∃ t, exec (.ldXYNn x nn) s = .next t ∧ Bookkept s t 2 14 (s.pc + 4) ∧ LoadedXY s t x nn) ∧
    (∀ x nn, ∃ t w, exec (.ldXYAtNn x nn) s = .next t ∧ Bookkept s t 2 20 (s.pc + 4) ∧ WordAt s nn w ∧
      LoadedXY s t x w) ∧
    (∀ x, ∃ t, exec (.ldSPXY x) s = .next t ∧ Bookkept s t 2 10 (s.pc + 2) ∧ LoadedPair s t .sp (s.xy x))

/-- The 16-bit stores and the pushes (R171, R173, R175, R188, R190), each byte with its own ROM check. -/
def Obligations.WordStoresAndPushes : Prop :=
  ∀ s : State, s.mem.wf = true →
    (∀ nn, ∃ t, exec (.ldAtNnHL nn) s = .next t ∧ Bookkept s t 1 16 (s.pc + 3) ∧ OnlyStoredWord s t nn s.hl) ∧
    (∀ p nn, ∃ t, exec (.ldAtNnRp p nn) s = .next t ∧ Bookkept s t 2 20 (s.pc + 4) ∧ OnlyStoredWord s t nn (s.rp p)) ∧
    (∀ x nn, ∃ t, exec (.ldAtNnXY x nn) s = .next t ∧ Bookkept s t 2 20 (s.pc + 4) ∧ OnlyStoredWord s t nn (s.xy x)) ∧
    (∀ p, ∃ t, exec (.pushRp p) s = .next t ∧ Bookkept s t 1 11 (s.pc + 1) ∧ Pushed s t (s.rp2 p)) ∧
    (∀ x, ∃ t, exec (.pushXY x) s = .next t ∧ Bookkept s t 2 15 (s.pc + 2) ∧ Pushed s t (s.xy x))

/-- The pops (R176, R191): the pair takes the word at SP, SP is 2 higher; `POP AF` loads F whole; nothing else changes. A pop of
what was just pushed in RAM gives the pair back, SP and every other register as before (R57, R58). -/
def Obligations.Pops : Prop :=
  (∀ s : State,
    (∀ p, ∃ t, exec (.popRp p) s = .next t ∧ Bookkept s t 1 10 (s.pc + 1) ∧ WordAt s s.sp (t.rp2 p) ∧
      (∀ q, q ≠ p → t.rp2 q = s.rp2 q) ∧ t.sp = s.sp + 2 ∧ t = { s.clocked t with main := t.main, sp := t.sp }) ∧
    (∀ x, ∃ t, exec (.popXY x) s = .next t ∧ Bookkept s t 2 14 (s.pc + 2) ∧ WordAt s s.sp (t.xy x) ∧
      (∀ y, y ≠ x → t.xy y = s.xy y) ∧ t.sp = s.sp + 2 ∧
      t = { s.clocked t with sp := t.sp, ixh := t.ixh, ixl := t.ixl, iyh := t.iyh, iyl := t.iyl })) ∧
  ∀ (s t u : State) (p : StackPair), s.mem.wf = true → 0x3FFF < (s.sp - 2).toNat → 0x3FFF < (s.sp - 1).toNat →
    exec (.pushRp p) s = .next t → exec (.popRp p) t = .next u → u.main = s.main ∧ u.sp = s.sp

/-- The loads of and from I and R (R177 to R180): `LD A,R` reads R after its own increment, after `LD R,A` R equals A, and
P/V takes IFF. -/
def Obligations.SpecialRegisterLoads : Prop :=
  ∀ s : State,
    (∃ t, exec .ldIA s = .next t ∧ Bookkept s t 2 9 (s.pc + 2) ∧ t.i = s.main.a ∧ t = { s.clocked t with i := t.i }) ∧
    (∃ t, exec .ldRA s = .next t ∧ t.pc = s.pc + 2 ∧ t.t = s.t + 9 ∧ t.last = .other ∧ t.r = s.main.a ∧ OnlyClocked s t) ∧
    (∃ t, exec .ldAI s = .next t ∧ Bookkept s t 2 9 (s.pc + 2) ∧ t.main.a = s.i ∧ OnlyAF s t ∧
      FlagsAre t.main.f (s.i.getLsbD 7) (decide (s.i.toNat = 0)) (s.i.getLsbD 5) false (s.i.getLsbD 3) s.iff false
        (s.main.f.getLsbD 0)) ∧
    (∃ t, exec .ldAR s = .next t ∧ Bookkept s t 2 9 (s.pc + 2) ∧ t.main.a = t.r ∧ OnlyAF s t ∧
      FlagsAre t.main.f (t.r.getLsbD 7) (decide (t.r.toNat = 0)) (t.r.getLsbD 5) false (t.r.getLsbD 3) s.iff false
        (s.main.f.getLsbD 0))

/-! ## Arithmetic and logic -/

/-- ADD and ADC, their five operand forms (R200 to R202): the sum, every flag from the exact numbers, nothing else. -/
def Obligations.AddAndAdc : Prop :=
  ∀ s : State,
    (∀ r, ∃ t, exec (.addAR r) s = .next t ∧ Bookkept s t 1 4 (s.pc + 1) ∧ AddedToA s t (s.reg r) 0) ∧
    (∃ t, exec .addAAtHL s = .next t ∧ Bookkept s t 1 7 (s.pc + 1) ∧ AddedToA s t (s.readByte s.hl) 0) ∧
    (∀ n, ∃ t, exec (.addAN n) s = .next t ∧ Bookkept s t 1 7 (s.pc + 2) ∧ AddedToA s t n 0) ∧
    (∀ x h, ∃ t, exec (.addAXYH x h) s = .next t ∧ Bookkept s t 2 8 (s.pc + 2) ∧ AddedToA s t (s.half x h) 0) ∧
    (∀ x d, ∃ t, exec (.addAAtXY x d) s = .next t ∧ Bookkept s t 2 19 (s.pc + 3) ∧
      AddedToA s t (s.readByte (s.ea x d)) 0) ∧
    (∀ r, ∃ t, exec (.adcAR r) s = .next t ∧ Bookkept s t 1 4 (s.pc + 1) ∧
      AddedToA s t (s.reg r) (s.main.f.getLsbD 0).toNat) ∧
    (∃ t, exec .adcAAtHL s = .next t ∧ Bookkept s t 1 7 (s.pc + 1) ∧
      AddedToA s t (s.readByte s.hl) (s.main.f.getLsbD 0).toNat) ∧
    (∀ n, ∃ t, exec (.adcAN n) s = .next t ∧ Bookkept s t 1 7 (s.pc + 2) ∧
      AddedToA s t n (s.main.f.getLsbD 0).toNat) ∧
    (∀ x h, ∃ t, exec (.adcAXYH x h) s = .next t ∧ Bookkept s t 2 8 (s.pc + 2) ∧
      AddedToA s t (s.half x h) (s.main.f.getLsbD 0).toNat) ∧
    (∀ x d, ∃ t, exec (.adcAAtXY x d) s = .next t ∧ Bookkept s t 2 19 (s.pc + 3) ∧
      AddedToA s t (s.readByte (s.ea x d)) (s.main.f.getLsbD 0).toNat)

/-- SUB, SBC and CP, their five operand forms (R200, R203, R204, R208): the difference, every flag from the exact numbers; CP
keeps A and takes bits 5 and 3 from the operand. -/
def Obligations.SubSbcAndCp : Prop :=
  ∀ s : State,
    (∀ r, ∃ t, exec (.subR r) s = .next t ∧ Bookkept s t 1 4 (s.pc + 1) ∧ SubtractedFromA s t (s.reg r) 0) ∧
    (∃ t, exec .subAtHL s = .next t ∧ Bookkept s t 1 7 (s.pc + 1) ∧ SubtractedFromA s t (s.readByte s.hl) 0) ∧
    (∀ n, ∃ t, exec (.subN n) s = .next t ∧ Bookkept s t 1 7 (s.pc + 2) ∧ SubtractedFromA s t n 0) ∧
    (∀ x h, ∃ t, exec (.subXYH x h) s = .next t ∧ Bookkept s t 2 8 (s.pc + 2) ∧ SubtractedFromA s t (s.half x h) 0) ∧
    (∀ x d, ∃ t, exec (.subAtXY x d) s = .next t ∧ Bookkept s t 2 19 (s.pc + 3) ∧
      SubtractedFromA s t (s.readByte (s.ea x d)) 0) ∧
    (∀ r, ∃ t, exec (.sbcAR r) s = .next t ∧ Bookkept s t 1 4 (s.pc + 1) ∧
      SubtractedFromA s t (s.reg r) (s.main.f.getLsbD 0).toNat) ∧
    (∃ t, exec .sbcAAtHL s = .next t ∧ Bookkept s t 1 7 (s.pc + 1) ∧
      SubtractedFromA s t (s.readByte s.hl) (s.main.f.getLsbD 0).toNat) ∧
    (∀ n, ∃ t, exec (.sbcAN n) s = .next t ∧ Bookkept s t 1 7 (s.pc + 2) ∧
      SubtractedFromA s t n (s.main.f.getLsbD 0).toNat) ∧
    (∀ x h, ∃ t, exec (.sbcAXYH x h) s = .next t ∧ Bookkept s t 2 8 (s.pc + 2) ∧
      SubtractedFromA s t (s.half x h) (s.main.f.getLsbD 0).toNat) ∧
    (∀ x d, ∃ t, exec (.sbcAAtXY x d) s = .next t ∧ Bookkept s t 2 19 (s.pc + 3) ∧
      SubtractedFromA s t (s.readByte (s.ea x d)) (s.main.f.getLsbD 0).toNat) ∧
    (∀ r, ∃ t, exec (.cpR r) s = .next t ∧ Bookkept s t 1 4 (s.pc + 1) ∧ ComparedWithA s t (s.reg r)) ∧
    (∃ t, exec .cpAtHL s = .next t ∧ Bookkept s t 1 7 (s.pc + 1) ∧ ComparedWithA s t (s.readByte s.hl)) ∧
    (∀ n, ∃ t, exec (.cpN n) s = .next t ∧ Bookkept s t 1 7 (s.pc + 2) ∧ ComparedWithA s t n) ∧
    (∀ x h, ∃ t, exec (.cpXYH x h) s = .next t ∧ Bookkept s t 2 8 (s.pc + 2) ∧ ComparedWithA s t (s.half x h)) ∧
    (∀ x d, ∃ t, exec (.cpAtXY x d) s = .next t ∧ Bookkept s t 2 19 (s.pc + 3) ∧
      ComparedWithA s t (s.readByte (s.ea x d)))

/-- AND, XOR and OR, their five operand forms (R200, R205 to R207): each bit of A, the logic flags, H set by AND only. -/
def Obligations.AndXorOr : Prop :=
  ∀ s : State,
    (∀ r, ∃ t, exec (.andR r) s = .next t ∧ Bookkept s t 1 4 (s.pc + 1) ∧ LogicOnA and true s t (s.reg r)) ∧
    (∃ t, exec .andAtHL s = .next t ∧ Bookkept s t 1 7 (s.pc + 1) ∧ LogicOnA and true s t (s.readByte s.hl)) ∧
    (∀ n, ∃ t, exec (.andN n) s = .next t ∧ Bookkept s t 1 7 (s.pc + 2) ∧ LogicOnA and true s t n) ∧
    (∀ x h, ∃ t, exec (.andXYH x h) s = .next t ∧ Bookkept s t 2 8 (s.pc + 2) ∧ LogicOnA and true s t (s.half x h)) ∧
    (∀ x d, ∃ t, exec (.andAtXY x d) s = .next t ∧ Bookkept s t 2 19 (s.pc + 3) ∧
      LogicOnA and true s t (s.readByte (s.ea x d))) ∧
    (∀ r, ∃ t, exec (.xorR r) s = .next t ∧ Bookkept s t 1 4 (s.pc + 1) ∧ LogicOnA xor false s t (s.reg r)) ∧
    (∃ t, exec .xorAtHL s = .next t ∧ Bookkept s t 1 7 (s.pc + 1) ∧ LogicOnA xor false s t (s.readByte s.hl)) ∧
    (∀ n, ∃ t, exec (.xorN n) s = .next t ∧ Bookkept s t 1 7 (s.pc + 2) ∧ LogicOnA xor false s t n) ∧
    (∀ x h, ∃ t, exec (.xorXYH x h) s = .next t ∧ Bookkept s t 2 8 (s.pc + 2) ∧ LogicOnA xor false s t (s.half x h)) ∧
    (∀ x d, ∃ t, exec (.xorAtXY x d) s = .next t ∧ Bookkept s t 2 19 (s.pc + 3) ∧
      LogicOnA xor false s t (s.readByte (s.ea x d))) ∧
    (∀ r, ∃ t, exec (.orR r) s = .next t ∧ Bookkept s t 1 4 (s.pc + 1) ∧ LogicOnA or false s t (s.reg r)) ∧
    (∃ t, exec .orAtHL s = .next t ∧ Bookkept s t 1 7 (s.pc + 1) ∧ LogicOnA or false s t (s.readByte s.hl)) ∧
    (∀ n, ∃ t, exec (.orN n) s = .next t ∧ Bookkept s t 1 7 (s.pc + 2) ∧ LogicOnA or false s t n) ∧
    (∀ x h, ∃ t, exec (.orXYH x h) s = .next t ∧ Bookkept s t 2 8 (s.pc + 2) ∧ LogicOnA or false s t (s.half x h)) ∧
    (∀ x d, ∃ t, exec (.orAtXY x d) s = .next t ∧ Bookkept s t 2 19 (s.pc + 3) ∧
      LogicOnA or false s t (s.readByte (s.ea x d)))

/-- `ADD HL,rp` and `ADD XY,pp` (R209, R212): the 16-bit sum, H from bit 11, C from bit 15, 5 and 3 from the high byte, S, Z
and P/V kept; value 2 of pp is the index register itself. -/
def Obligations.WordAdd : Prop :=
  ∀ s : State,
    (∀ p, ∃ t, exec (.addHLRp p) s = .next t ∧ Bookkept s t 1 11 (s.pc + 1) ∧
      t.hl.toNat = (s.hl.toNat + (s.rp p).toNat) % 65536 ∧
      FlagsAre t.main.f (s.main.f.getLsbD 7) (s.main.f.getLsbD 6) (t.hl.getLsbD 13)
        (decide (s.hl.toNat % 4096 + (s.rp p).toNat % 4096 > 4095)) (t.hl.getLsbD 11) (s.main.f.getLsbD 2) false
        (decide (s.hl.toNat + (s.rp p).toNat > 65535)) ∧
      t = { s.clocked t with main := { s.main with h := t.main.h, l := t.main.l, f := t.main.f } }) ∧
    (∀ x p, ∃ t, exec (.addXYRp x p) s = .next t ∧ Bookkept s t 2 15 (s.pc + 2) ∧
      (∀ v : Word, (p = .bc → v = s.bc) → (p = .de → v = s.de) → (p = .xy → v = s.xy x) → (p = .sp → v = s.sp) →
        (t.xy x).toNat = ((s.xy x).toNat + v.toNat) % 65536 ∧
        FlagsAre t.main.f (s.main.f.getLsbD 7) (s.main.f.getLsbD 6) ((t.xy x).getLsbD 13)
          (decide ((s.xy x).toNat % 4096 + v.toNat % 4096 > 4095)) ((t.xy x).getLsbD 11) (s.main.f.getLsbD 2) false
          (decide ((s.xy x).toNat + v.toNat > 65535))) ∧
      (∀ y, y ≠ x → t.xy y = s.xy y) ∧
      t = { s.clocked t with
        ixh := t.ixh, ixl := t.ixl, iyh := t.iyh, iyl := t.iyl, main := { s.main with f := t.main.f } })

/-- `ADC HL,rp` and `SBC HL,rp` (R210, R211): the 16-bit sum or difference with carry and all eight flags of it. -/
def Obligations.WordAddAndSubtractWithCarry : Prop :=
  ∀ (s : State) (p : RegPair),
    (∃ t, exec (.adcHLRp p) s = .next t ∧ Bookkept s t 2 15 (s.pc + 2) ∧
      t.hl.toNat = (s.hl.toNat + (s.rp p).toNat + (s.main.f.getLsbD 0).toNat) % 65536 ∧
      FlagsAre t.main.f (t.hl.getLsbD 15) (decide (t.hl.toNat = 0)) (t.hl.getLsbD 13)
        (decide (s.hl.toNat % 4096 + (s.rp p).toNat % 4096 + (s.main.f.getLsbD 0).toNat > 4095)) (t.hl.getLsbD 11)
        (overflows 16 (s.hl.toInt + (s.rp p).toInt + (s.main.f.getLsbD 0).toNat)) false
        (decide (s.hl.toNat + (s.rp p).toNat + (s.main.f.getLsbD 0).toNat > 65535)) ∧
      t = { s.clocked t with main := { s.main with h := t.main.h, l := t.main.l, f := t.main.f } }) ∧
    (∃ t, exec (.sbcHLRp p) s = .next t ∧ Bookkept s t 2 15 (s.pc + 2) ∧
      (t.hl.toNat : Int) = ((s.hl.toNat : Int) - (s.rp p).toNat - (s.main.f.getLsbD 0).toNat) % 65536 ∧
      FlagsAre t.main.f (t.hl.getLsbD 15) (decide (t.hl.toNat = 0)) (t.hl.getLsbD 13)
        (decide (s.hl.toNat % 4096 < (s.rp p).toNat % 4096 + (s.main.f.getLsbD 0).toNat)) (t.hl.getLsbD 11)
        (overflows 16 (s.hl.toInt - (s.rp p).toInt - (s.main.f.getLsbD 0).toNat)) true
        (decide (s.hl.toNat < (s.rp p).toNat + (s.main.f.getLsbD 0).toNat)) ∧
      t = { s.clocked t with main := { s.main with h := t.main.h, l := t.main.l, f := t.main.f } })

/-- NEG, CPL, SCF, CCF and DAA (R137, R213 to R217): every duplicate of NEG is NEG; DAA's correction comes from H, C and the
digits, is added after an addition and subtracted after a subtraction, and N is kept. -/
def Obligations.AccumulatorAdjustments : Prop :=
  ∀ s : State,
    (∀ y, ∃ t, exec (.neg y) s = .next t ∧ Bookkept s t 2 8 (s.pc + 2) ∧ t.main.a.toNat = (256 - s.main.a.toNat) % 256 ∧
      FlagsAre t.main.f (t.main.a.getLsbD 7) (decide (s.main.a.toNat = 0)) (t.main.a.getLsbD 5)
        (decide (s.main.a.toNat % 16 ≠ 0)) (t.main.a.getLsbD 3) (decide (s.main.a.toNat = 128)) true
        (decide (s.main.a.toNat ≠ 0)) ∧ OnlyAF s t) ∧
    (∃ t, exec .cpl s = .next t ∧ Bookkept s t 1 4 (s.pc + 1) ∧ t.main.a.toNat = 255 - s.main.a.toNat ∧
      FlagsAre t.main.f (s.main.f.getLsbD 7) (s.main.f.getLsbD 6) (t.main.a.getLsbD 5) true (t.main.a.getLsbD 3)
        (s.main.f.getLsbD 2) true (s.main.f.getLsbD 0) ∧ OnlyAF s t) ∧
    (∃ t, exec .scf s = .next t ∧ Bookkept s t 1 4 (s.pc + 1) ∧
      FlagsAre t.main.f (s.main.f.getLsbD 7) (s.main.f.getLsbD 6) (s.main.a.getLsbD 5) false (s.main.a.getLsbD 3)
        (s.main.f.getLsbD 2) false true ∧ OnlyF s t) ∧
    (∃ t, exec .ccf s = .next t ∧ Bookkept s t 1 4 (s.pc + 1) ∧
      FlagsAre t.main.f (s.main.f.getLsbD 7) (s.main.f.getLsbD 6) (s.main.a.getLsbD 5) (s.main.f.getLsbD 0)
        (s.main.a.getLsbD 3) (s.main.f.getLsbD 2) false (!s.main.f.getLsbD 0) ∧ OnlyF s t) ∧
    (∃ t, exec .daa s = .next t ∧ Bookkept s t 1 4 (s.pc + 1) ∧ OnlyAF s t ∧
      ∀ corr : Nat,
        corr = (if s.main.f.getLsbD 4 = true ∨ 9 < s.main.a.toNat % 16 then 6 else 0) +
          (if s.main.f.getLsbD 0 = true ∨ 153 < s.main.a.toNat then 96 else 0) →
        t.main.a.toNat = (if s.main.f.getLsbD 1 then s.main.a.toNat + 256 - corr else s.main.a.toNat + corr) % 256 ∧
        FlagsAre t.main.f (t.main.a.getLsbD 7) (decide (t.main.a.toNat = 0)) (t.main.a.getLsbD 5)
          (if s.main.f.getLsbD 1 then s.main.f.getLsbD 4 && decide (s.main.a.toNat % 16 < 6)
            else decide (9 < s.main.a.toNat % 16))
          (t.main.a.getLsbD 3) (evenOnes t.main.a) (s.main.f.getLsbD 1)
          (s.main.f.getLsbD 0 || decide (153 < s.main.a.toNat)))

/-- DAA adjusts: after `ADD A,n` or `SUB n` on two numbers 0 to 99 in decimal digits, it leaves the digits of their sum or
difference mod 100, and C says whether it left the range (R137, R213). -/
def Obligations.DecimalArithmetic : Prop :=
  ∀ (s t u : State) (n : Byte) (x y : Nat), x < 100 → y < 100 → s.main.a.toNat = x / 10 * 16 + x % 10 →
    n.toNat = y / 10 * 16 + y % 10 →
    (exec (.addAN n) s = .next t → exec .daa t = .next u →
      u.main.a.toNat = (x + y) % 100 / 10 * 16 + (x + y) % 10 ∧ u.main.f.getLsbD 0 = decide (100 ≤ x + y)) ∧
    (exec (.subN n) s = .next t → exec .daa t = .next u →
      u.main.a.toNat = (100 + x - y) % 100 / 10 * 16 + (100 + x - y) % 10 ∧ u.main.f.getLsbD 0 = decide (x < y))

/-! ## Increment and decrement -/

/-- 8-bit INC and DEC, their eight forms (R230 to R237): C is kept; a memory form on a ROM byte stores nothing and still sets
F; the other half of an index register is kept. -/
def Obligations.ByteIncrementAndDecrement : Prop :=
  ∀ s : State, s.mem.wf = true →
    (∀ r, ∃ t, exec (.incR r) s = .next t ∧ Bookkept s t 1 4 (s.pc + 1) ∧ OnRegister Incremented s t r) ∧
    (∀ r, ∃ t, exec (.decR r) s = .next t ∧ Bookkept s t 1 4 (s.pc + 1) ∧ OnRegister Decremented s t r) ∧
    (∃ t, exec .incAtHL s = .next t ∧ Bookkept s t 1 11 (s.pc + 1) ∧ OnMemory Incremented s t s.hl) ∧
    (∃ t, exec .decAtHL s = .next t ∧ Bookkept s t 1 11 (s.pc + 1) ∧ OnMemory Decremented s t s.hl) ∧
    (∀ x d, ∃ t, exec (.incAtXY x d) s = .next t ∧ Bookkept s t 2 23 (s.pc + 3) ∧ OnMemory Incremented s t (s.ea x d)) ∧
    (∀ x d, ∃ t, exec (.decAtXY x d) s = .next t ∧ Bookkept s t 2 23 (s.pc + 3) ∧ OnMemory Decremented s t (s.ea x d)) ∧
    (∀ x h, ∃ t, exec (.incXYH x h) s = .next t ∧ Bookkept s t 2 8 (s.pc + 2) ∧
      Incremented (s.half x h) (t.half x h) s.main.f t.main.f ∧
      (∀ y k, (y ≠ x ∨ k ≠ h) → t.half y k = s.half y k) ∧
      t = { s.clocked t with
        ixh := t.ixh, ixl := t.ixl, iyh := t.iyh, iyl := t.iyl, main := { s.main with f := t.main.f } }) ∧
    (∀ x h, ∃ t, exec (.decXYH x h) s = .next t ∧ Bookkept s t 2 8 (s.pc + 2) ∧
      Decremented (s.half x h) (t.half x h) s.main.f t.main.f ∧
      (∀ y k, (y ≠ x ∨ k ≠ h) → t.half y k = s.half y k) ∧
      t = { s.clocked t with
        ixh := t.ixh, ixl := t.ixl, iyh := t.iyh, iyl := t.iyl, main := { s.main with f := t.main.f } })

/-- 16-bit INC and DEC (R238 to R241): mod 65536, no flag changes. -/
def Obligations.WordIncrementAndDecrement : Prop :=
  ∀ s : State,
    (∀ p, ∃ t v, exec (.incRp p) s = .next t ∧ Bookkept s t 1 6 (s.pc + 1) ∧ LoadedPair s t p v ∧
      v.toNat = ((s.rp p).toNat + 1) % 65536) ∧
    (∀ p, ∃ t v, exec (.decRp p) s = .next t ∧ Bookkept s t 1 6 (s.pc + 1) ∧ LoadedPair s t p v ∧
      v.toNat = ((s.rp p).toNat + 65535) % 65536) ∧
    (∀ x, ∃ t v, exec (.incXY x) s = .next t ∧ Bookkept s t 2 10 (s.pc + 2) ∧ LoadedXY s t x v ∧
      v.toNat = ((s.xy x).toNat + 1) % 65536) ∧
    (∀ x, ∃ t v, exec (.decXY x) s = .next t ∧ Bookkept s t 2 10 (s.pc + 2) ∧ LoadedXY s t x v ∧
      v.toNat = ((s.xy x).toNat + 65535) % 65536)

/-! ## Rotates, shifts and bits -/

/-- RLCA, RRCA, RLA and RRA (R245 to R248): A rotated, 5 and 3 from it, H and N clear, C the bit shifted out, S, Z and P/V
kept. Their round trips as the spec keeps them (R135, 90_conflicts.md C6): A comes back for RLCA and RRCA, with C the bit that
moved last; A and C come back for RLA and RRA. -/
def Obligations.AccumulatorRotates : Prop :=
  (∀ s : State, ∀ k ∈ [(Instr.rlca, RotKind.rlc), (.rrca, .rrc), (.rla, .rl), (.rra, .rr)],
    ∃ t, exec k.1 s = .next t ∧ Bookkept s t 1 4 (s.pc + 1) ∧
      t.main.a.toNat = rotatedNat k.2 s.main.a.toNat (s.main.f.getLsbD 0).toNat ∧
      FlagsAre t.main.f (s.main.f.getLsbD 7) (s.main.f.getLsbD 6) (t.main.a.getLsbD 5) false (t.main.a.getLsbD 3)
        (s.main.f.getLsbD 2) false (shiftedOut k.2 s.main.a) ∧
      OnlyAF s t) ∧
  ∀ s t u : State,
    (exec .rlca s = .next t → exec .rrca t = .next u →
      u.main.a = s.main.a ∧ u.main.f.getLsbD 0 = s.main.a.getLsbD 7) ∧
    (exec .rrca s = .next t → exec .rlca t = .next u →
      u.main.a = s.main.a ∧ u.main.f.getLsbD 0 = s.main.a.getLsbD 0) ∧
    (exec .rla s = .next t → exec .rra t = .next u →
      u.main.a = s.main.a ∧ u.main.f.getLsbD 0 = s.main.f.getLsbD 0) ∧
    (exec .rra s = .next t → exec .rla t = .next u →
      u.main.a = s.main.a ∧ u.main.f.getLsbD 0 = s.main.f.getLsbD 0)

/-- The eight rotates and shifts of a register (R249 to R257). -/
def Obligations.RotateRegister : Prop :=
  ∀ (s : State) (r : Reg8),
    ∀ k ∈ [(Instr.rlcR r, RotKind.rlc), (.rrcR r, .rrc), (.rlR r, .rl), (.rrR r, .rr), (.slaR r, .sla), (.sraR r, .sra),
      (.sllR r, .sll), (.srlR r, .srl)],
    ∃ t, exec k.1 s = .next t ∧ Bookkept s t 2 8 (s.pc + 2) ∧ OnRegister (Rotated k.2) s t r

/-- The eight rotates and shifts of a memory byte: (HL), (XY+d), and (XY+d) with the register copy (R249 to R259). The
register is written even where the byte is ROM. -/
def Obligations.RotateMemory : Prop :=
  ∀ s : State, s.mem.wf = true →
    (∀ k ∈ [(Instr.rlcAtHL, RotKind.rlc), (.rrcAtHL, .rrc), (.rlAtHL, .rl), (.rrAtHL, .rr), (.slaAtHL, .sla),
        (.sraAtHL, .sra), (.sllAtHL, .sll), (.srlAtHL, .srl)],
      ∃ t, exec k.1 s = .next t ∧ Bookkept s t 2 15 (s.pc + 2) ∧ OnMemory (Rotated k.2) s t s.hl) ∧
    (∀ (x : XY) (d : Byte), ∀ k ∈ [(Instr.rlcAtXY x d, RotKind.rlc), (.rrcAtXY x d, .rrc), (.rlAtXY x d, .rl),
        (.rrAtXY x d, .rr), (.slaAtXY x d, .sla), (.sraAtXY x d, .sra), (.sllAtXY x d, .sll), (.srlAtXY x d, .srl)],
      ∃ t, exec k.1 s = .next t ∧ Bookkept s t 2 23 (s.pc + 4) ∧ OnMemory (Rotated k.2) s t (s.ea x d)) ∧
    (∀ (x : XY) (d : Byte) (r : Reg8), ∀ k ∈ [(Instr.rlcAtXYR x d r, RotKind.rlc), (.rrcAtXYR x d r, .rrc),
        (.rlAtXYR x d r, .rl), (.rrAtXYR x d r, .rr), (.slaAtXYR x d r, .sla), (.sraAtXYR x d r, .sra),
        (.sllAtXYR x d r, .sll), (.srlAtXYR x d r, .srl)],
      ∃ t, exec k.1 s = .next t ∧ Bookkept s t 2 23 (s.pc + 4) ∧ OnMemoryAndCopy (Rotated k.2) s t (s.ea x d) r)

/-- BIT, its three forms (R260 to R262): only F changes; bits 5 and 3 come from the tested byte, or from the high byte of the
address in the indexed form, whose z field is ignored. -/
def Obligations.BitTest : Prop :=
  ∀ s : State,
    (∀ b r, ∃ t, exec (.bitR b r) s = .next t ∧ Bookkept s t 2 8 (s.pc + 2) ∧ OnlyF s t ∧
      BitTested b (s.reg r) (s.reg r) s.main.f t.main.f) ∧
    (∀ b, ∃ t, exec (.bitAtHL b) s = .next t ∧ Bookkept s t 2 12 (s.pc + 2) ∧ OnlyF s t ∧
      BitTested b (s.readByte s.hl) (s.readByte s.hl) s.main.f t.main.f) ∧
    (∀ x d b z, ∃ t, exec (.bitAtXY x d b z) s = .next t ∧ Bookkept s t 2 20 (s.pc + 4) ∧ OnlyF s t ∧
      BitTested b (s.readByte (s.ea x d)) (BitVec.ofNat 8 ((s.ea x d).toNat / 256)) s.main.f t.main.f)

/-- RES and SET, their eight forms (R249, R258, R259, R263, R264): one bit of the operand, F kept. -/
def Obligations.BitResetAndSet : Prop :=
  ∀ (s : State) (b : BitVec 3), s.mem.wf = true →
    (∀ r, ∃ t, exec (.resR b r) s = .next t ∧ Bookkept s t 2 8 (s.pc + 2) ∧ OnRegister (BitWritten b false) s t r) ∧
    (∀ r, ∃ t, exec (.setR b r) s = .next t ∧ Bookkept s t 2 8 (s.pc + 2) ∧ OnRegister (BitWritten b true) s t r) ∧
    (∃ t, exec (.resAtHL b) s = .next t ∧ Bookkept s t 2 15 (s.pc + 2) ∧ OnMemory (BitWritten b false) s t s.hl) ∧
    (∃ t, exec (.setAtHL b) s = .next t ∧ Bookkept s t 2 15 (s.pc + 2) ∧ OnMemory (BitWritten b true) s t s.hl) ∧
    (∀ x d, ∃ t, exec (.resAtXY x d b) s = .next t ∧ Bookkept s t 2 23 (s.pc + 4) ∧
      OnMemory (BitWritten b false) s t (s.ea x d)) ∧
    (∀ x d, ∃ t, exec (.setAtXY x d b) s = .next t ∧ Bookkept s t 2 23 (s.pc + 4) ∧
      OnMemory (BitWritten b true) s t (s.ea x d)) ∧
    (∀ x d r, ∃ t, exec (.resAtXYR x d b r) s = .next t ∧ Bookkept s t 2 23 (s.pc + 4) ∧
      OnMemoryAndCopy (BitWritten b false) s t (s.ea x d) r) ∧
    (∀ x d r, ∃ t, exec (.setAtXYR x d b r) s = .next t ∧ Bookkept s t 2 23 (s.pc + 4) ∧
      OnMemoryAndCopy (BitWritten b true) s t (s.ea x d) r)

/-- RLD and RRD (R265, R266): the digits of A's low half and of (HL) move round; A's high digit is kept. -/
def Obligations.DigitRotates : Prop :=
  ∀ s : State, s.mem.wf = true →
    (∃ t w, exec .rld s = .next t ∧ Bookkept s t 2 18 (s.pc + 2) ∧
      w.toNat = (s.readByte s.hl).toNat % 16 * 16 + s.main.a.toNat % 16 ∧ StoredByte s t s.hl w ∧
      t.main.a.toNat = s.main.a.toNat / 16 * 16 + (s.readByte s.hl).toNat / 16 ∧
      ParityFlags t.main.a (s.main.f.getLsbD 0) t.main.f ∧
      t = { s.clocked t with mem := t.mem, main := { s.main with a := t.main.a, f := t.main.f } }) ∧
    (∃ t w, exec .rrd s = .next t ∧ Bookkept s t 2 18 (s.pc + 2) ∧
      w.toNat = s.main.a.toNat % 16 * 16 + (s.readByte s.hl).toNat / 16 ∧ StoredByte s t s.hl w ∧
      t.main.a.toNat = s.main.a.toNat / 16 * 16 + (s.readByte s.hl).toNat % 16 ∧
      ParityFlags t.main.a (s.main.f.getLsbD 0) t.main.f ∧
      t = { s.clocked t with mem := t.mem, main := { s.main with a := t.main.a, f := t.main.f } })

/-! ## Block instructions and ports -/

/-- LDI, LDD, LDIR and LDDR (R275, R277 to R280): one byte copied, HL and DE moved, BC counted; the repeating forms run again
from PC0 while BC is not 0. -/
def Obligations.BlockTransfer : Prop :=
  ∀ s : State, s.mem.wf = true →
    (∃ t, exec .ldi s = .next t ∧ Bookkept s t 2 16 (s.pc + 2) ∧ BlockCopied s t 1) ∧
    (∃ t, exec .ldd s = .next t ∧ Bookkept s t 2 16 (s.pc + 2) ∧ BlockCopied s t (-1)) ∧
    (∃ t, exec .ldir s = .next t ∧ BlockCopied s t 1 ∧ RepeatsOrEnds s t (t.bc.toNat ≠ 0)) ∧
    (∃ t, exec .lddr s = .next t ∧ BlockCopied s t (-1) ∧ RepeatsOrEnds s t (t.bc.toNat ≠ 0))

/-- CPI, CPD, CPIR and CPDR (R275, R281 to R284): A compared with (HL), HL moved, BC counted; the repeating forms run again
while BC is not 0 and the byte differs from A. -/
def Obligations.BlockCompare : Prop :=
  ∀ s : State,
    (∃ t, exec .cpi s = .next t ∧ Bookkept s t 2 16 (s.pc + 2) ∧ BlockCompared s t 1) ∧
    (∃ t, exec .cpd s = .next t ∧ Bookkept s t 2 16 (s.pc + 2) ∧ BlockCompared s t (-1)) ∧
    (∃ t, exec .cpir s = .next t ∧ BlockCompared s t 1 ∧
      RepeatsOrEnds s t (t.bc.toNat ≠ 0 ∧ s.main.a ≠ s.readByte s.hl)) ∧
    (∃ t, exec .cpdr s = .next t ∧ BlockCompared s t (-1) ∧
      RepeatsOrEnds s t (t.bc.toNat ≠ 0 ∧ s.main.a ≠ s.readByte s.hl))

/-- INI, IND, INIR and INDR (R275, R285 to R288), for whatever byte the port gives: the host's answers and the free value past them are the
model's form of R64 (logs 3 and 4). -/
def Obligations.BlockIn : Prop :=
  ∀ s : State, s.mem.wf = true →
    (∃ t, exec .ini s = .next t ∧ Bookkept s t 2 16 (s.pc + 2) ∧ BlockInput s t 1) ∧
    (∃ t, exec .ind s = .next t ∧ Bookkept s t 2 16 (s.pc + 2) ∧ BlockInput s t (-1)) ∧
    (∃ t, exec .inir s = .next t ∧ BlockInput s t 1 ∧ RepeatsOrEnds s t (t.main.b.toNat ≠ 0)) ∧
    (∃ t, exec .indr s = .next t ∧ BlockInput s t (-1) ∧ RepeatsOrEnds s t (t.main.b.toNat ≠ 0))

/-- OUTI, OUTD, OTIR and OTDR (R275, R289 to R292): the port's high byte is the decremented B. -/
def Obligations.BlockOut : Prop :=
  ∀ s : State,
    (∃ t, exec .outi s = .next t ∧ Bookkept s t 2 16 (s.pc + 2) ∧ BlockOutput s t 1) ∧
    (∃ t, exec .outd s = .next t ∧ Bookkept s t 2 16 (s.pc + 2) ∧ BlockOutput s t (-1)) ∧
    (∃ t, exec .otir s = .next t ∧ BlockOutput s t 1 ∧ RepeatsOrEnds s t (t.main.b.toNat ≠ 0)) ∧
    (∃ t, exec .otdr s = .next t ∧ BlockOutput s t (-1) ∧ RepeatsOrEnds s t (t.main.b.toNat ≠ 0))

/-- `IN A,(n)`, `IN r,(C)` and `IN F,(C)` (R64, R66, R293 to R295), for whatever byte the port gives, 255 where no read port
is installed; `OUT (n),A`, `OUT (C),r` and `OUT (C),0` (R65, R66, R296 to R298): the event joins the history.
The host's answers and the free value past them are the model's form of R64 (logs 3 and 4). -/
def Obligations.PortInputAndOutput : Prop :=
  ∀ s : State,
    (∀ n, ∃ t v p, exec (.inAN n) s = .next t ∧ Bookkept s t 1 11 (s.pc + 2) ∧
      p.toNat = s.main.a.toNat * 256 + n.toNat ∧ PortGave s t p v ∧ t.main = { s.main with a := v } ∧
      t = { s.clocked t with main := t.main, readPort := t.readPort, portReads := t.portReads }) ∧
    (∀ r, ∃ t v, exec (.inRC r) s = .next t ∧ Bookkept s t 2 12 (s.pc + 2) ∧ PortGave s t s.bc v ∧ t.reg r = v ∧
      (∀ k, k ≠ r → t.reg k = s.reg k) ∧ ParityFlags v (s.main.f.getLsbD 0) t.main.f ∧
      t = { s.clocked t with main := t.main, readPort := t.readPort, portReads := t.portReads }) ∧
    (∃ t v, exec .inFC s = .next t ∧ Bookkept s t 2 12 (s.pc + 2) ∧ PortGave s t s.bc v ∧
      ParityFlags v (s.main.f.getLsbD 0) t.main.f ∧
      t = { s.clocked t with main := { s.main with f := t.main.f }, readPort := t.readPort, portReads := t.portReads }) ∧
    (∀ n, ∃ t p, exec (.outNA n) s = .next t ∧ Bookkept s t 1 11 (s.pc + 2) ∧
      p.toNat = s.main.a.toNat * 256 + n.toNat ∧ t = { s.clocked t with portWrites := s.portWrites ++ [⟨p, s.main.a⟩] }) ∧
    (∀ r, ∃ t, exec (.outCR r) s = .next t ∧ Bookkept s t 2 12 (s.pc + 2) ∧
      t = { s.clocked t with portWrites := s.portWrites ++ [⟨s.bc, s.reg r⟩] }) ∧
    (∃ t, exec .outC0 s = .next t ∧ Bookkept s t 2 12 (s.pc + 2) ∧
      t = { s.clocked t with portWrites := s.portWrites ++ [⟨s.bc, 0⟩] })

/-! ## Control flow -/

/-- The jumps (R300 to R306): only PC changes, and B for DJNZ; `JP cc` takes 10 T-states either way, `JR cc` 12 or 7, DJNZ
13 or 8. R303 gives `JR cc` the conditions NZ, Z, NC and C: for PO, PE, P and M, which nothing decodes to, the clause is the
model's (log 18, DESIGN CHOICE). -/
def Obligations.Jumps : Prop :=
  ∀ s : State,
    (∀ nn, ∃ t, exec (.jpNn nn) s = .next t ∧ Bookkept s t 1 10 nn ∧ OnlyClocked s t) ∧
    (∀ cc nn, ∃ t, exec (.jpCcNn cc nn) s = .next t ∧ OnlyClocked s t ∧
      Bookkept s t 1 10 (if condTrue s.main.f cc then nn else s.pc + 3)) ∧
    (∀ e, ∃ t a, exec (.jr e) s = .next t ∧ IsRelTarget s.pc e a ∧ Bookkept s t 1 12 a ∧ OnlyClocked s t) ∧
    (∀ cc e, ∃ t a, exec (.jrCc cc e) s = .next t ∧ IsRelTarget s.pc e a ∧ OnlyClocked s t ∧
      if condTrue s.main.f cc then Bookkept s t 1 12 a else Bookkept s t 1 7 (s.pc + 2)) ∧
    (∃ t, exec .jpHL s = .next t ∧ Bookkept s t 1 4 s.hl ∧ OnlyClocked s t) ∧
    (∀ x, ∃ t, exec (.jpXY x) s = .next t ∧ Bookkept s t 2 8 (s.xy x) ∧ OnlyClocked s t) ∧
    (∀ e, ∃ t a, exec (.djnz e) s = .next t ∧ IsRelTarget s.pc e a ∧ LoadedReg s t .b (s.main.b - 1) ∧
      if s.main.b.toNat = 1 then Bookkept s t 1 8 (s.pc + 2) else Bookkept s t 1 13 a)

/-- CALL, `CALL cc` and RST (R307, R308, R311): the address after the instruction is pushed; a call not taken makes no stack
access. -/
def Obligations.Calls : Prop :=
  ∀ s : State, s.mem.wf = true →
    (∀ nn, ∃ t, exec (.callNn nn) s = .next t ∧ Bookkept s t 1 17 nn ∧ Pushed s t (s.pc + 3)) ∧
    (∀ cc nn, ∃ t, exec (.callCcNn cc nn) s = .next t ∧
      if condTrue s.main.f cc then Bookkept s t 1 17 nn ∧ Pushed s t (s.pc + 3)
      else Bookkept s t 1 10 (s.pc + 3) ∧ OnlyClocked s t) ∧
    (∀ p, ∃ t a, exec (.rst p) s = .next t ∧ a.toNat = 8 * p.toNat ∧ Bookkept s t 1 11 a ∧ Pushed s t (s.pc + 1))

/-- RET, `RET cc`, RETN and RETI (R309, R310, R337, R338, R361): PC takes the word at SP, SP is 2 higher, IFF and all else are
unchanged; a return not taken leaves SP. y = 1 is RETI (R338): for RETN's term with y = 1, which nothing decodes to, the
clause is the model's (log 18, DESIGN CHOICE). -/
def Obligations.Returns : Prop :=
  ∀ s : State,
    (∃ t a, exec .ret s = .next t ∧ WordAt s s.sp a ∧ Bookkept s t 1 10 a ∧ t = { s.clocked t with sp := s.sp + 2 }) ∧
    (∀ cc, ∃ t a, exec (.retCc cc) s = .next t ∧ WordAt s s.sp a ∧
      if condTrue s.main.f cc then Bookkept s t 1 11 a ∧ t = { s.clocked t with sp := s.sp + 2 }
      else Bookkept s t 1 5 (s.pc + 1) ∧ OnlyClocked s t) ∧
    (∀ y, ∃ t a, exec (.retn y) s = .next t ∧ WordAt s s.sp a ∧ Bookkept s t 2 14 a ∧
      t = { s.clocked t with sp := s.sp + 2 }) ∧
    (∃ t a, exec .reti s = .next t ∧ WordAt s s.sp a ∧ Bookkept s t 2 14 a ∧ t = { s.clocked t with sp := s.sp + 2 })

/-! ## Exchange and CPU control -/

/-- The exchanges (R320 to R324); a stack in ROM keeps its bytes while HL, IX or IY still takes the old word. -/
def Obligations.Exchanges : Prop :=
  ∀ s : State, s.mem.wf = true →
    (∃ t, exec .exAfAf s = .next t ∧ Bookkept s t 1 4 (s.pc + 1) ∧
      t = { s.clocked t with
        main := { s.main with a := s.shadow.a, f := s.shadow.f },
        shadow := { s.shadow with a := s.main.a, f := s.main.f } }) ∧
    (∃ t, exec .exDEHL s = .next t ∧ Bookkept s t 1 4 (s.pc + 1) ∧
      t = { s.clocked t with main := { s.main with d := s.main.h, e := s.main.l, h := s.main.d, l := s.main.e } }) ∧
    (∃ t, exec .exx s = .next t ∧ Bookkept s t 1 4 (s.pc + 1) ∧
      t.main = { s.shadow with a := s.main.a, f := s.main.f } ∧
      t.shadow = { s.main with a := s.shadow.a, f := s.shadow.f } ∧
      t = { s.clocked t with main := t.main, shadow := t.shadow }) ∧
    (∃ t, exec .exSPHL s = .next t ∧ Bookkept s t 1 19 (s.pc + 1) ∧ WordAt s s.sp t.hl ∧ StoredWord s t s.sp s.hl ∧
      t = { s.clocked t with mem := t.mem, main := { s.main with h := t.main.h, l := t.main.l } }) ∧
    (∀ x, ∃ t, exec (.exSPXY x) s = .next t ∧ Bookkept s t 2 23 (s.pc + 2) ∧ WordAt s s.sp (t.xy x) ∧
      StoredWord s t s.sp (s.xy x) ∧ (∀ y, y ≠ x → t.xy y = s.xy y) ∧
      t = { s.clocked t with mem := t.mem, ixh := t.ixh, ixl := t.ixl, iyh := t.iyh, iyl := t.iyl })

/-- NOP, the ED no-ops, the lone prefix, DI, EI and IM (R330, R332 to R336, R339, R340): T, R, PC and LAST as each says, and
the one control bit it writes. Where R334 to R336 give an IM n no such y, or R339 gives ED 80 to BF a block instruction,
nothing decodes to the term and the clause is the model's (log 18, DESIGN CHOICE). -/
def Obligations.CpuControl : Prop :=
  ∀ s : State,
    (∃ t, exec .nop s = .next t ∧ Bookkept s t 1 4 (s.pc + 1) ∧ OnlyClocked s t) ∧
    (∃ t, exec .nopED77 s = .next t ∧ Bookkept s t 2 8 (s.pc + 2) ∧ OnlyClocked s t) ∧
    (∃ t, exec .nopED7F s = .next t ∧ Bookkept s t 2 8 (s.pc + 2) ∧ OnlyClocked s t) ∧
    (∀ x, ∃ t, exec (.nopEDLow x) s = .next t ∧ Bookkept s t 2 8 (s.pc + 2) ∧ OnlyClocked s t) ∧
    (∀ x, ∃ t, exec (.nopEDHigh x) s = .next t ∧ Bookkept s t 2 8 (s.pc + 2) ∧ OnlyClocked s t) ∧
    (∀ x, ∃ t, exec (.nopEDMid x) s = .next t ∧ Bookkept s t 2 8 (s.pc + 2) ∧ OnlyClocked s t) ∧
    (∀ x, ∃ t, exec (.lonePrefix x) s = .next t ∧ t.pc = s.pc + 1 ∧ t.t = s.t + 4 ∧ CountedR s t 1 ∧
      t.last = .lonePrefix ∧ OnlyClocked s t) ∧
    (∃ t, exec .di s = .next t ∧ Bookkept s t 1 4 (s.pc + 1) ∧ t = { s.clocked t with iff := false }) ∧
    (∃ t, exec .ei s = .next t ∧ t.pc = s.pc + 1 ∧ t.t = s.t + 4 ∧ CountedR s t 1 ∧ t.last = .ei ∧
      t = { s.clocked t with iff := true }) ∧
    (∀ y, ∃ t, exec (.im0 y) s = .next t ∧ Bookkept s t 2 8 (s.pc + 2) ∧ t = { s.clocked t with im := .im0 }) ∧
    (∀ y, ∃ t, exec (.im1 y) s = .next t ∧ Bookkept s t 2 8 (s.pc + 2) ∧ t = { s.clocked t with im := .im1 }) ∧
    (∀ y, ∃ t, exec (.im2 y) s = .next t ∧ Bookkept s t 2 8 (s.pc + 2) ∧ t = { s.clocked t with im := .im2 })

/-- HALT (R331): it passes itself where IFF is set and its 4 T-states cross a multiple of FRAME_DURATION, and otherwise stays
on itself, halted. -/
def Obligations.Halt : Prop :=
  ∀ s : State, ∃ t, exec .halt s = .next t ∧ t.t = s.t + 4 ∧ CountedR s t 1 ∧ OnlyClocked s t ∧
    if s.iff = true ∧ s.t / s.cfg.frameDuration < (s.t + 4) / s.cfg.frameDuration
    then t.pc = s.pc + 1 ∧ t.last = .other else t.pc = s.pc ∧ t.last = .halted

/-! ## The maskable interrupt -/

/-- The acceptance check accepts exactly when IFF is set, LAST is neither EI nor PREFIX and the request line is active
(R351, R353, R354), and then does what R354 to R357 say and nothing else. -/
def Obligations.InterruptAcceptance : Prop :=
  ∀ s : State, s.mem.wf = true →
    (MayAccept s → Accepted s s.acceptanceCheck) ∧ (¬ MayAccept s → s.acceptanceCheck = s)

/-- A step that runs EI or a lone prefix accepts no interrupt, whatever the request line does (R333, R340, R353); one that
runs EI leaves IFF set. -/
def Obligations.AcceptanceIsDeferred : Prop :=
  ∀ s t : State, step s = .next t →
    (s.fetchInstr = .ei → exec .ei s = .next t ∧ t.iff = true ∧ t.pc = s.pc + 1) ∧
    (∀ x, s.fetchInstr = .lonePrefix x → exec (.lonePrefix x) s = .next t ∧ t.iff = s.iff ∧ t.pc = s.pc + 1)

/-- A core on a HALT with IFF clear stays on it (R331, R357). With IFF set it is woken at the first frame boundary where
INT_ACTIVE is at least 4: the step that crosses it accepts the interrupt; and an interrupt accepted in a step that runs HALT
pushes the address after the HALT. -/
def Obligations.HaltSteps : Prop :=
  (∀ s t : State, s.fetchInstr = .halt → s.iff = false → step s = .next t →
    t.pc = s.pc ∧ t.last = .halted ∧ t.t = s.t + 4 ∧ CountedR s t 1 ∧ OnlyClocked s t) ∧
  ∀ s t : State, s.mem.wf = true → s.cfg.wf = true → s.fetchInstr = .halt → s.iff = true → step s = .next t →
    (4 ≤ s.cfg.intActive → s.t / s.cfg.frameDuration < (s.t + 4) / s.cfg.frameDuration → t.iff = false) ∧
    (t.iff = false → StoredWord s t (s.sp - 2) (s.pc + 1) ∧ t.sp = s.sp - 2 ∧ t.last = .other)

/-- An interrupt accepted between two iterations of a repeating block instruction pushes the instruction's own address
(R276, R362), each byte through the ROM check (R53). It says nothing of the return. -/
def Obligations.InterruptedRepeatPushesItsAddress : Prop :=
  ∀ (i : Instr) (s t : State), i.repeating = true → s.mem.wf = true → exec i s = .next t → t.pc = s.pc → MayAccept t →
    Accepted t t.acceptanceCheck ∧ StoredWord t t.acceptanceCheck (t.sp - 2) s.pc

/-! ## The host interface -/

/-- `run` (R371 to R373): with no stop address it is one step; with one it is steps, at least one, until PC equals the
address after a step. The bound on the steps and the 16-bit stop are the model's (logs 15 and 16). -/
def Obligations.RunIsStepsToTheStop : Prop :=
  (∀ (n : Nat) (start : Option Int) (s t : State), run noTrace (n + 1) start none s = .returned t ↔
    step (match start with
      | some a => { s with pc := BitVec.ofInt 16 a }
      | none => s) = .next t) ∧
  (∀ (fuel : Nat) (a : Word) (s t : State), run noTrace fuel none (some a) s = .returned t ↔
    ∃ n, 1 ≤ n ∧ n ≤ fuel ∧ Sys2Proof.core.run n s = .next t ∧ t.pc = a ∧
      ∀ m u, 1 ≤ m → m < n → Sys2Proof.core.run m s = .next u → u.pc ≠ a)

/-- Import and export (R37, R38): what the host writes under a name is read back under it, reduced mod 256 or mod 65536, a
negative T as 0; a name the table does not have is an error. -/
def Obligations.ImportThenExport : Prop :=
  (∀ (s : State) (n : RegName) (v : Int),
    ((s.importValue n v).regValue n : Int) =
      (match n with
        | .slot _ => v % 256
        | .pair _ => v % 65536
        | .sp => v % 65536
        | .pc => v % 65536
        | .t => max v 0)) ∧
  (∀ (s : State) (name : String), lookupName name = none →
    s.readByName name = .error (.unknownRegister name) ∧ ∀ v, s.writeByName name v = .error (.unknownRegister name)) ∧
  ∀ (s : State) (m n : SlotName) (v : Int), m ≠ n → (s.importValue (.slot m) v).slot n = s.slot n

end Statements
end

