-- ==== Sys2Proof/Laws/Flags.lean ====
section
/-! SUPPORT. The laws of the flag functions of Machine/Flags.lean: the eight flags of each, bit by bit, and its result, in the
terms of Safety.lean. A proof about an instruction cites these and never unfolds a flag byte. -/

namespace Sys2Proof.Machine

/-! ## Bits -/

theorem flagAt_getLsbD {k : Nat} (x : Bool) (i : Nat) (hk : k < 8) :
    (flagAt k x).getLsbD i = (x && decide (i = k)) := by
  unfold flagAt
  cases x
  · simp
  · simp only [if_true, Bool.true_and]
    by_cases h : i = k
    · subst h; simp [hk]
    · simp [h]
      intro h1 h2
      omega

theorem flagAt_getElem {k : Nat} (x : Bool) (i : Nat) (hi : i < 8) (hk : k < 8) :
    (flagAt k x)[i] = (x && decide (i = k)) := by
  rw [← BitVec.getLsbD_eq_getElem hi, flagAt_getLsbD x i hk]

theorem beq_zero_eq {w : Nat} (v : BitVec w) : (v == 0) = decide (v.toNat = 0) := by
  by_cases h : v = 0
  · simp [h]
  · have : v.toNat ≠ 0 := fun hc => h (BitVec.eq_of_toNat_eq (by simpa using hc))
    simp only [this, decide_false, beq_eq_false_iff_ne, ne_eq]
    exact h

theorem bne_zero_eq {w : Nat} (v : BitVec w) : (v != 0) = decide (v.toNat ≠ 0) := by
  have h := beq_zero_eq v
  simp only [bne, h, ne_eq, decide_not]

theorem evenOnes_eq_par (v : Byte) : evenOnes v = par v := by
  have h : (List.range 8).countP (fun k => v.getLsbD k) = ones v := by
    rw [show List.range 8 = [0, 1, 2, 3, 4, 5, 6, 7] from rfl]
    simp only [List.countP_cons, List.countP_nil, ones]
    cases v.getLsbD 0 <;> cases v.getLsbD 1 <;> cases v.getLsbD 2 <;> cases v.getLsbD 3 <;> cases v.getLsbD 4 <;>
      cases v.getLsbD 5 <;> cases v.getLsbD 6 <;> cases v.getLsbD 7 <;> rfl
  rw [evenOnes, par, h]

theorem sz53_flags (v : Byte) :
    FlagsAre (sz53 v) (v.getLsbD 7) (decide (v.toNat = 0)) (v.getLsbD 5) false (v.getLsbD 3) false false false := by
  unfold sz53
  rw [beq_zero_eq]
  constructor <;> simp [flagAt_getElem]

theorem sz53p_flags (v : Byte) :
    FlagsAre (sz53p v) (v.getLsbD 7) (decide (v.toNat = 0)) (v.getLsbD 5) false (v.getLsbD 3) (evenOnes v) false
      false := by
  unfold sz53p sz53
  rw [beq_zero_eq, evenOnes_eq_par]
  constructor <;> simp [flagAt_getElem]

theorem ParityFlags_sz53p (v : Byte) (c : Bool) : ParityFlags v c (sz53p v ||| flagAt 0 c) := by
  have h := sz53p_flags v
  constructor <;> simp only [BitVec.getLsbD_or, flagAt_getLsbD _ _ (by decide : (0 : Nat) < 8), h.bitS, h.bitZ, h.bit5, h.bitH, h.bit3,
    h.bitPV, h.bitN, h.bitC] <;> simp

/-! ## Overflow (rule R123) -/

theorem toInt_byte (a : Byte) : a.toInt = if 128 ≤ a.toNat then (a.toNat : Int) - 256 else a.toNat := by
  rw [BitVec.toInt_eq_toNat_cond]
  split <;> split <;> omega

theorem toInt_word (a : Word) : a.toInt = if 32768 ≤ a.toNat then (a.toNat : Int) - 65536 else a.toNat := by
  rw [BitVec.toInt_eq_toNat_cond]
  split <;> split <;> omega

theorem msb_byte (a : Byte) : a.msb = decide (128 ≤ a.toNat) := by
  rw [BitVec.msb_eq_decide]

theorem msb_word (a : Word) : a.msb = decide (32768 ≤ a.toNat) := by
  rw [BitVec.msb_eq_decide]

theorem vadd_byte (a b r : Byte) (c : Bool) (h : r.toNat = (a.toNat + b.toNat + c.toNat) % 256) :
    vadd a b r = overflows 8 (a.toInt + b.toInt + c.toNat) := by
  have ha := a.isLt
  have hb := b.isLt
  have hc : c.toNat ≤ 1 := Bool.toNat_le c
  rw [vadd, overflows, toInt_byte, toInt_byte, msb_byte, msb_byte, msb_byte, Bool.eq_iff_iff]
  simp only [Bool.and_eq_true, beq_iff_eq, bne_iff_ne, ne_eq, decide_eq_decide, decide_eq_true_eq]
  split <;> split <;> omega

theorem vsub_byte (a b r : Byte) (c : Bool) (h : (r.toNat : Int) = ((a.toNat : Int) - b.toNat - c.toNat) % 256) :
    vsub a b r = overflows 8 (a.toInt - b.toInt - c.toNat) := by
  have ha := a.isLt
  have hb := b.isLt
  have hc : c.toNat ≤ 1 := Bool.toNat_le c
  rw [vsub, overflows, toInt_byte, toInt_byte, msb_byte, msb_byte, msb_byte, Bool.eq_iff_iff]
  simp only [Bool.and_eq_true, bne_iff_ne, ne_eq, decide_eq_decide, decide_eq_true_eq]
  split <;> split <;> omega

theorem vadd_word (a b r : Word) (c : Bool) (h : r.toNat = (a.toNat + b.toNat + c.toNat) % 65536) :
    vadd a b r = overflows 16 (a.toInt + b.toInt + c.toNat) := by
  have ha := a.isLt
  have hb := b.isLt
  have hc : c.toNat ≤ 1 := Bool.toNat_le c
  rw [vadd, overflows, toInt_word, toInt_word, msb_word, msb_word, msb_word, Bool.eq_iff_iff]
  simp only [Bool.and_eq_true, beq_iff_eq, bne_iff_ne, ne_eq, decide_eq_decide, decide_eq_true_eq]
  split <;> split <;> omega

theorem vsub_word (a b r : Word) (c : Bool) (h : (r.toNat : Int) = ((a.toNat : Int) - b.toNat - c.toNat) % 65536) :
    vsub a b r = overflows 16 (a.toInt - b.toInt - c.toNat) := by
  have ha := a.isLt
  have hb := b.isLt
  have hc : c.toNat ≤ 1 := Bool.toNat_le c
  rw [vsub, overflows, toInt_word, toInt_word, msb_word, msb_word, msb_word, Bool.eq_iff_iff]
  simp only [Bool.and_eq_true, bne_iff_ne, ne_eq, decide_eq_decide, decide_eq_true_eq]
  split <;> split <;> omega

/-! ## 8-bit arithmetic and logic -/

theorem add8_result (a b : Byte) (c : Bool) : (add8 a b c).1.toNat = (a.toNat + b.toNat + c.toNat) % 256 := by
  simp [add8]

theorem add8_flags (a b : Byte) (c : Bool) : SumFlags a b c.toNat (add8 a b c).1 (add8 a b c).2 := by
  have hr := add8_result a b c
  have hv := vadd_byte a b _ c hr
  have hz := sz53_flags (add8 a b c).1
  unfold SumFlags
  rw [← hv]
  simp only [add8, hadd] at hz ⊢
  constructor <;> simp only [BitVec.getLsbD_or, flagAt_getLsbD _ _ (by decide : (0 : Nat) < 8),
    flagAt_getLsbD _ _ (by decide : (2 : Nat) < 8), flagAt_getLsbD _ _ (by decide : (4 : Nat) < 8), hz.bitS, hz.bitZ, hz.bit5,
    hz.bitH, hz.bit3, hz.bitPV, hz.bitN, hz.bitC] <;> simp

theorem sub8_result (a b : Byte) (c : Bool) :
    ((sub8 a b c).1.toNat : Int) = ((a.toNat : Int) - b.toNat - c.toNat) % 256 := by
  simp only [sub8, BitVec.toNat_ofInt]
  omega

theorem sub8_flags (a b : Byte) (c : Bool) : DiffFlags a b c.toNat (sub8 a b c).1 (sub8 a b c).1 (sub8 a b c).2 := by
  have hr := sub8_result a b c
  have hv := vsub_byte a b _ c hr
  have hz := sz53_flags (sub8 a b c).1
  have hc : decide ((a.toNat : Int) - b.toNat - c.toNat < 0) = decide (a.toNat < b.toNat + c.toNat) := by
    rw [decide_eq_decide]; omega
  unfold DiffFlags
  rw [← hv]
  simp only [sub8, hsub] at hz hc ⊢
  constructor <;> simp only [BitVec.getLsbD_or, flagAt_getLsbD _ _ (by decide : (0 : Nat) < 8), flagAt_getLsbD _ _ (by decide : (1 : Nat) < 8),
    flagAt_getLsbD _ _ (by decide : (2 : Nat) < 8), flagAt_getLsbD _ _ (by decide : (4 : Nat) < 8), hz.bitS, hz.bitZ, hz.bit5,
    hz.bitH, hz.bit3, hz.bitPV, hz.bitN, hz.bitC, hc] <;> simp

theorem cp8_flags (a b r : Byte) (h : (r.toNat : Int) = ((a.toNat : Int) - b.toNat) % 256) :
    DiffFlags a b 0 r b (cp8 a b) := by
  have hs := sub8_result a b false
  have hr : r = (sub8 a b false).1 := by
    apply BitVec.eq_of_toNat_eq
    simp only [Bool.toNat_false] at hs
    omega
  have hf := sub8_flags a b false
  rw [← hr] at hf
  unfold cp8
  constructor <;> simp only [BitVec.getLsbD_or, BitVec.getLsbD_and, hf.bitS, hf.bitZ, hf.bitH, hf.bitPV, hf.bitN, hf.bitC] <;>
    simp

theorem and8_flags (a b : Byte) : LogicFlags true (and8 a b).1 (and8 a b).2 := by
  have h := sz53p_flags (a &&& b)
  unfold and8
  constructor <;> simp only [BitVec.getLsbD_or, h.bitS, h.bitZ, h.bit5, h.bitH, h.bit3, h.bitPV, h.bitN, h.bitC] <;> simp

theorem xor8_flags (a b : Byte) : LogicFlags false (xor8 a b).1 (xor8 a b).2 := sz53p_flags (a ^^^ b)

theorem or8_flags (a b : Byte) : LogicFlags false (or8 a b).1 (or8 a b).2 := sz53p_flags (a ||| b)

/-! ## Increment and decrement -/

theorem nibble_eq (v : Byte) (n : Byte) : (v &&& 0x0F == n) = decide (v.toNat % 16 = n.toNat) := by
  have h : (v &&& 0x0F).toNat = v.toNat % 16 := by
    rw [BitVec.toNat_and]
    exact Nat.and_two_pow_sub_one_eq_mod v.toNat 4
  rw [← h, Bool.eq_iff_iff, beq_iff_eq, decide_eq_true_eq]
  exact ⟨fun hc => congrArg _ hc, fun hc => BitVec.eq_of_toNat_eq hc⟩

theorem beq_eq {w : Nat} (v n : BitVec w) : (v == n) = decide (v.toNat = n.toNat) := by
  rw [Bool.eq_iff_iff, beq_iff_eq, decide_eq_true_eq]
  exact ⟨fun hc => congrArg _ hc, fun hc => BitVec.eq_of_toNat_eq hc⟩

theorem inc8_spec (v f : Byte) : Incremented v (inc8 v f).1 f (inc8 v f).2 := by
  have hr : (v + 1).toNat = (v.toNat + 1) % 256 := by simp
  have hz := sz53_flags (v + 1)
  have h0 : decide ((v + 1).toNat = 0) = decide (v.toNat = 255) := by
    rw [decide_eq_decide, hr]; have := v.isLt; omega
  refine ⟨hr, ?_⟩
  simp only [inc8, nibble_eq, beq_eq v 0x7F, flagC]
  rw [h0] at hz
  constructor <;> simp only [BitVec.getLsbD_or, flagAt_getLsbD _ _ (by decide : (0 : Nat) < 8),
    flagAt_getLsbD _ _ (by decide : (2 : Nat) < 8), flagAt_getLsbD _ _ (by decide : (4 : Nat) < 8), hz.bitS, hz.bitZ, hz.bit5,
    hz.bitH, hz.bit3, hz.bitPV, hz.bitN, hz.bitC] <;> simp

theorem dec8_spec (v f : Byte) : Decremented v (dec8 v f).1 f (dec8 v f).2 := by
  have hr : (v - 1).toNat = (v.toNat + 255) % 256 := by
    rw [BitVec.toNat_sub]; have := v.isLt; simp; omega
  have hz := sz53_flags (v - 1)
  have h0 : decide ((v - 1).toNat = 0) = decide (v.toNat = 1) := by
    rw [decide_eq_decide, hr]; have := v.isLt; omega
  refine ⟨hr, ?_⟩
  simp only [dec8, nibble_eq, beq_eq v 0x80, flagC]
  rw [h0] at hz
  constructor <;> simp only [BitVec.getLsbD_or, flagAt_getLsbD _ _ (by decide : (0 : Nat) < 8), flagAt_getLsbD _ _ (by decide : (1 : Nat) < 8),
    flagAt_getLsbD _ _ (by decide : (2 : Nat) < 8), flagAt_getLsbD _ _ (by decide : (4 : Nat) < 8), hz.bitS, hz.bitZ, hz.bit5,
    hz.bitH, hz.bit3, hz.bitPV, hz.bitN, hz.bitC] <;> simp

/-! ## Rotates, shifts and bits -/

theorem rotResult_toNat (k : RotKind) (v : Byte) (c : Bool) : (rotResult k v c).toNat = rotatedNat k v.toNat c.toNat := by
  revert v c
  cases k <;> decide +revert

theorem rotCarry_eq (k : RotKind) (v : Byte) : rotCarry k v = shiftedOut k v := by
  revert v
  cases k <;> decide +revert

theorem rot_spec (k : RotKind) (v f : Byte) : Rotated k v (rotOp k v f).1 f (rotOp k v f).2 := by
  refine ⟨rotResult_toNat k v (flagC f), ?_⟩
  simp only [rotOp, rot, ← rotCarry_eq]
  exact ParityFlags_sz53p _ _

theorem rota_flags (k : RotKind) (a f : Byte) :
    FlagsAre (rota k a f).2 (f.getLsbD 7) (f.getLsbD 6) ((rota k a f).1.getLsbD 5) false ((rota k a f).1.getLsbD 3)
      (f.getLsbD 2) false (shiftedOut k a) := by
  rw [← rotCarry_eq]
  unfold rota
  constructor <;> simp only [BitVec.getLsbD_or, BitVec.getLsbD_and, flagAt_getLsbD _ _ (by decide : (0 : Nat) < 8)] <;> simp

theorem bitF_spec (b : BitVec 3) (v u f : Byte) : BitTested b v u f (bitF b v u f) := by
  unfold bitF
  have hb : (b == 7) = decide (b.toNat = 7) := beq_eq b 7
  rw [hb]
  constructor <;> simp only [BitVec.getLsbD_or, BitVec.getLsbD_and, flagC, flagAt_getLsbD _ _ (by decide : (0 : Nat) < 8),
    flagAt_getLsbD _ _ (by decide : (2 : Nat) < 8), flagAt_getLsbD _ _ (by decide : (4 : Nat) < 8),
    flagAt_getLsbD _ _ (by decide : (6 : Nat) < 8), flagAt_getLsbD _ _ (by decide : (7 : Nat) < 8)] <;> simp

theorem one_shift_getLsbD (b : BitVec 3) (k : Nat) (hk : k < 8) : ((1#8) <<< b.toNat).getLsbD k = decide (k = b.toNat) := by
  have hb := b.isLt
  rw [BitVec.getLsbD_shiftLeft]
  by_cases h : k = b.toNat
  · subst h; simp [hk]
  · simp [h, hk]
    intro hle
    omega

theorem resOp_spec (b : BitVec 3) (v f : Byte) : BitWritten b false v (resOp b v f).1 f (resOp b v f).2 := by
  have hb := b.isLt
  refine ⟨?_, ?_, rfl⟩
  · simp only [resOp, BitVec.getLsbD_and, BitVec.getLsbD_xor, one_shift_getLsbD b _ hb]
    have h : (255#8).getLsbD b.toNat = true := by
      revert b; decide
    simp [h]
  · intro k hk hne
    simp only [resOp, BitVec.getLsbD_and, BitVec.getLsbD_xor, one_shift_getLsbD b _ hk]
    have h : (255#8).getLsbD k = true := by
      clear hne; clear hb; revert k; decide
    simp [h, hne]

theorem setOp_spec (b : BitVec 3) (v f : Byte) : BitWritten b true v (setOp b v f).1 f (setOp b v f).2 := by
  have hb := b.isLt
  refine ⟨?_, ?_, rfl⟩
  · simp [setOp, BitVec.getLsbD_or, one_shift_getLsbD b _ hb]
  · intro k hk hne
    simp [setOp, BitVec.getLsbD_or, one_shift_getLsbD b _ hk, hne]

/-! ## Accumulator adjustments -/

theorem cpl_flags (a f : Byte) :
    FlagsAre (cpl a f).2 (f.getLsbD 7) (f.getLsbD 6) ((cpl a f).1.getLsbD 5) true ((cpl a f).1.getLsbD 3) (f.getLsbD 2)
      true (f.getLsbD 0) := by
  unfold cpl
  constructor <;> simp

theorem scf_flags (a f : Byte) :
    FlagsAre (scf a f) (f.getLsbD 7) (f.getLsbD 6) (a.getLsbD 5) false (a.getLsbD 3) (f.getLsbD 2) false true := by
  unfold scf
  constructor <;> simp

theorem ccf_flags (a f : Byte) :
    FlagsAre (ccf a f) (f.getLsbD 7) (f.getLsbD 6) (a.getLsbD 5) (f.getLsbD 0) (a.getLsbD 3) (f.getLsbD 2) false
      (!f.getLsbD 0) := by
  unfold ccf
  constructor <;> simp [flagAt_getElem, flagC]

/-! ## 16-bit arithmetic -/

theorem hiByte_getLsbD (w : Word) (k : Nat) (hk : k < 8) : (hiByte w).getLsbD k = w.getLsbD (8 + k) := by
  simp [hiByte, hk]

theorem hiByte_getElem (w : Word) (k : Nat) (hk : k < 8) : (hiByte w)[k] = w.getLsbD (8 + k) := by
  rw [← BitVec.getLsbD_eq_getElem hk, hiByte_getLsbD w k hk]

theorem add16_result (x y : Word) (f : Byte) : (add16 x y f).1.toNat = (x.toNat + y.toNat) % 65536 := by
  simp [add16]

theorem add16_flags (x y : Word) (f : Byte) :
    FlagsAre (add16 x y f).2 (f.getLsbD 7) (f.getLsbD 6) ((add16 x y f).1.getLsbD 13)
      (decide (x.toNat % 4096 + y.toNat % 4096 > 4095)) ((add16 x y f).1.getLsbD 11) (f.getLsbD 2) false
      (decide (x.toNat + y.toNat > 65535)) := by
  unfold add16 hadd16
  constructor <;> simp [flagAt_getElem, hiByte_getElem]

theorem adc16_result (x y : Word) (c : Bool) : (adc16 x y c).1.toNat = (x.toNat + y.toNat + c.toNat) % 65536 := by
  simp [adc16]

theorem adc16_flags (x y : Word) (c : Bool) :
    FlagsAre (adc16 x y c).2 ((adc16 x y c).1.getLsbD 15) (decide ((adc16 x y c).1.toNat = 0)) ((adc16 x y c).1.getLsbD 13)
      (decide (x.toNat % 4096 + y.toNat % 4096 + c.toNat > 4095)) ((adc16 x y c).1.getLsbD 11)
      (overflows 16 (x.toInt + y.toInt + c.toNat)) false (decide (x.toNat + y.toNat + c.toNat > 65535)) := by
  rw [← vadd_word x y _ c (adc16_result x y c), ← beq_zero_eq]
  unfold adc16 hadd16
  constructor <;> simp only [BitVec.getLsbD_or, BitVec.getLsbD_and, hiByte_getLsbD _ _ (by decide : (7 : Nat) < 8),
    hiByte_getLsbD _ _ (by decide : (5 : Nat) < 8), hiByte_getLsbD _ _ (by decide : (3 : Nat) < 8),
    flagAt_getLsbD _ _ (by decide : (0 : Nat) < 8), flagAt_getLsbD _ _ (by decide : (2 : Nat) < 8),
    flagAt_getLsbD _ _ (by decide : (4 : Nat) < 8), flagAt_getLsbD _ _ (by decide : (6 : Nat) < 8)] <;> simp

theorem sbc16_result (x y : Word) (c : Bool) :
    ((sbc16 x y c).1.toNat : Int) = ((x.toNat : Int) - y.toNat - c.toNat) % 65536 := by
  simp only [sbc16, BitVec.toNat_ofInt]
  omega

theorem sbc16_flags (x y : Word) (c : Bool) :
    FlagsAre (sbc16 x y c).2 ((sbc16 x y c).1.getLsbD 15) (decide ((sbc16 x y c).1.toNat = 0)) ((sbc16 x y c).1.getLsbD 13)
      (decide (x.toNat % 4096 < y.toNat % 4096 + c.toNat)) ((sbc16 x y c).1.getLsbD 11)
      (overflows 16 (x.toInt - y.toInt - c.toNat)) true (decide (x.toNat < y.toNat + c.toNat)) := by
  have hc : decide ((x.toNat : Int) - y.toNat - c.toNat < 0) = decide (x.toNat < y.toNat + c.toNat) := by
    rw [decide_eq_decide]; omega
  rw [← vsub_word x y _ c (sbc16_result x y c), ← beq_zero_eq]
  unfold sbc16 hsub16
  simp only [hc]
  constructor <;> simp only [BitVec.getLsbD_or, BitVec.getLsbD_and, hiByte_getLsbD _ _ (by decide : (7 : Nat) < 8),
    hiByte_getLsbD _ _ (by decide : (5 : Nat) < 8), hiByte_getLsbD _ _ (by decide : (3 : Nat) < 8),
    flagAt_getLsbD _ _ (by decide : (0 : Nat) < 8), flagAt_getLsbD _ _ (by decide : (1 : Nat) < 8),
    flagAt_getLsbD _ _ (by decide : (2 : Nat) < 8), flagAt_getLsbD _ _ (by decide : (4 : Nat) < 8),
    flagAt_getLsbD _ _ (by decide : (6 : Nat) < 8)] <;> simp

/-! ## Block, I/O and special-register flags -/

theorem ldiF_flags (v a : Byte) (bc : Word) (f : Byte) :
    FlagsAre (ldiF v a bc f) (f.getLsbD 7) (f.getLsbD 6) ((v + a).getLsbD 1) false ((v + a).getLsbD 3)
      (decide (bc.toNat ≠ 0)) false (f.getLsbD 0) := by
  unfold ldiF
  rw [bne_zero_eq]
  constructor <;> simp [flagAt_getElem]

theorem inF_flags (v f : Byte) : ParityFlags v (f.getLsbD 0) (inF v f) := ParityFlags_sz53p _ _

theorem rdF_flags (a f : Byte) : ParityFlags a (f.getLsbD 0) (rdF a f) := ParityFlags_sz53p _ _

theorem irF_flags (v : Byte) (iff : Bool) (f : Byte) :
    FlagsAre (irF v iff f) (v.getLsbD 7) (decide (v.toNat = 0)) (v.getLsbD 5) false (v.getLsbD 3) iff false
      (f.getLsbD 0) := by
  unfold irF sz53
  rw [beq_zero_eq]
  constructor <;> simp [flagAt_getElem, flagC]

theorem iobF_flags (v : Byte) (k : Nat) (b : Byte) : BlockIOFlags v k b (iobF v k b) := by
  unfold iobF
  have hz := sz53_flags b
  rw [← evenOnes_eq_par]
  constructor <;> simp only [BitVec.getLsbD_or, flagAt_getLsbD _ _ (by decide : (0 : Nat) < 8), flagAt_getLsbD _ _ (by decide : (1 : Nat) < 8),
    flagAt_getLsbD _ _ (by decide : (2 : Nat) < 8), flagAt_getLsbD _ _ (by decide : (4 : Nat) < 8), hz.bitS, hz.bitZ, hz.bit5,
    hz.bitH, hz.bit3, hz.bitPV, hz.bitN, hz.bitC] <;> simp

theorem cpiF_flags (v a : Byte) (bc : Word) (f r n : Byte) (hr : (r.toNat : Int) = ((a.toNat : Int) - v.toNat) % 256)
    (hn : (n.toNat : Int) = ((r.toNat : Int) - (if a.toNat % 16 < v.toNat % 16 then 1 else 0)) % 256) :
    FlagsAre (cpiF v a bc f) (r.getLsbD 7) (decide (a = v)) (n.getLsbD 1) (decide (a.toNat % 16 < v.toNat % 16))
      (n.getLsbD 3) (decide (bc.toNat ≠ 0)) true (f.getLsbD 0) := by
  have ha := a.isLt
  have hv := v.isLt
  have h1 : a - v = r := by
    apply BitVec.eq_of_toNat_eq
    rw [BitVec.toNat_sub]
    omega
  have hh : hsub a v false = decide (a.toNat % 16 < v.toNat % 16) := by simp [hsub]
  have h2 : r - (if hsub a v false = true then 1 else 0) = n := by
    apply BitVec.eq_of_toNat_eq
    rw [hh, BitVec.toNat_sub]
    by_cases hlt : a.toNat % 16 < v.toNat % 16
    · simp only [hlt, if_true, decide_true] at hn ⊢
      simp
      omega
    · simp only [hlt, if_false, decide_false, Bool.false_eq_true] at hn ⊢
      simp
      omega
  have hz : (r == 0) = decide (a = v) := by
    rw [beq_zero_eq, decide_eq_decide]
    constructor
    · intro h0
      apply BitVec.eq_of_toNat_eq
      omega
    · intro h0
      rw [h0] at hr
      omega
  unfold cpiF
  simp only [h1]
  rw [h2, hz, hh, bne_zero_eq]
  constructor <;> simp [flagAt_getElem, flagC]

theorem daa_result (a f : Byte) (corr : Nat)
    (h : corr = (if f.getLsbD 4 = true ∨ 9 < a.toNat % 16 then 6 else 0) +
      (if f.getLsbD 0 = true ∨ 153 < a.toNat then 96 else 0)) :
    (daa a f).1.toNat = (if f.getLsbD 1 then a.toNat + 256 - corr else a.toNat + corr) % 256 := by
  have ha := a.isLt
  unfold daa
  simp only [flagH, flagC, flagN]
  subst h
  rcases Bool.eq_false_or_eq_true (f.getLsbD 4) with h4 | h4 <;>
    rcases Bool.eq_false_or_eq_true (f.getLsbD 0) with h0 | h0 <;>
    rcases Bool.eq_false_or_eq_true (f.getLsbD 1) with h1 | h1 <;> simp only [h4, h0, h1] <;>
    by_cases hl : 9 < a.toNat % 16 <;> by_cases hh : 153 < a.toNat <;> simp [hl, hh, BitVec.toNat_sub] <;> omega

theorem daa_flags (a f : Byte) :
    FlagsAre (daa a f).2 ((daa a f).1.getLsbD 7) (decide ((daa a f).1.toNat = 0)) ((daa a f).1.getLsbD 5)
      (if f.getLsbD 1 then f.getLsbD 4 && decide (a.toNat % 16 < 6) else decide (9 < a.toNat % 16))
      ((daa a f).1.getLsbD 3) (evenOnes (daa a f).1) (f.getLsbD 1) (f.getLsbD 0 || decide (153 < a.toNat)) := by
  have h := sz53p_flags (daa a f).1
  unfold daa at h ⊢
  simp only [flagH, flagC, flagN, gt_iff_lt] at h ⊢
  constructor <;> simp only [BitVec.getLsbD_or, flagAt_getLsbD _ _ (by decide : (0 : Nat) < 8), flagAt_getLsbD _ _ (by decide : (1 : Nat) < 8),
    flagAt_getLsbD _ _ (by decide : (4 : Nat) < 8), h.bitS, h.bitZ, h.bit5,
    h.bitH, h.bit3, h.bitPV, h.bitN, h.bitC] <;> simp

theorem neg8_result (a : Byte) : (neg8 a).1.toNat = (256 - a.toNat) % 256 := by
  have h := sub8_result 0 a false
  have ha := a.isLt
  have h0 : (0 : Byte).toNat = 0 := rfl
  unfold neg8
  simp only [Bool.toNat_false, h0] at h
  omega

theorem neg8_flags (a : Byte) :
    FlagsAre (neg8 a).2 ((neg8 a).1.getLsbD 7) (decide (a.toNat = 0)) ((neg8 a).1.getLsbD 5) (decide (a.toNat % 16 ≠ 0))
      ((neg8 a).1.getLsbD 3) (decide (a.toNat = 128)) true (decide (a.toNat ≠ 0)) := by
  have h := sub8_flags 0 a false
  have hr := neg8_result a
  have ha := a.isLt
  have hz : decide ((neg8 a).1.toNat = 0) = decide (a.toNat = 0) := by rw [decide_eq_decide]; omega
  have hv : overflows 8 ((0 : Byte).toInt - a.toInt - (false.toNat : Int)) = decide (a.toNat = 128) := by
    rw [overflows, decide_eq_decide, toInt_byte a]
    simp
    split <;> omega
  have hH : decide ((0 : Byte).toNat % 16 < a.toNat % 16 + false.toNat) = decide (a.toNat % 16 ≠ 0) := by
    rw [decide_eq_decide]; simp; omega
  have hC : decide ((0 : Byte).toNat < a.toNat + false.toNat) = decide (a.toNat ≠ 0) := by
    rw [decide_eq_decide]; simp; omega
  unfold DiffFlags at h
  rw [show sub8 0 a false = neg8 a from rfl, hz, hv, hH, hC] at h
  exact h

end Sys2Proof.Machine
end

