-- ==== Sys2Proof/Laws/State.lean ====
section
/-! SUPPORT. The small lemmas of the state: for each named update, one lemma per field of `State` that says what the
update leaves of that field, so that no later proof unfolds a record update. -/

namespace Sys2Proof.Machine

/-! ## A bank of registers (rules R21, R22, R91) -/

@[simp] theorem RegSet.get_set_same (g : RegSet) (r : Reg8) (v : Byte) : (g.set r v).get r = v := by cases r <;> rfl

theorem RegSet.get_set_other (g : RegSet) {r r' : Reg8} (v : Byte) (h : r' ≠ r) : (g.set r v).get r' = g.get r' := by
  cases r <;> cases r' <;> first | rfl | exact absurd rfl h

theorem RegSet.get_set (g : RegSet) (r r' : Reg8) (v : Byte) :
    (g.set r v).get r' = if r' = r then v else g.get r' := by
  by_cases h : r' = r
  · subst h; simp
  · rw [if_neg h, RegSet.get_set_other g v h]

@[simp] theorem RegSet.set_f (g : RegSet) (r : Reg8) (v : Byte) : (g.set r v).f = g.f := by cases r <;> rfl

theorem RegSet.get_set_eq (g : RegSet) (r : Reg8) : g.set r (g.get r) = g := by cases r <;> rfl

theorem RegSet.ext_get {g k : RegSet} (hf : g.f = k.f) (h : ∀ r, g.get r = k.get r) : g = k := by
  cases g; cases k
  have ha := h .a
  have hb := h .b
  have hc := h .c
  have hd := h .d
  have he := h .e
  have hh := h .h
  have hl := h .l
  simp_all [RegSet.get]

@[simp] theorem RegSet.get_a (g : RegSet) : g.get .a = g.a := rfl

@[simp] theorem RegSet.get_b (g : RegSet) : g.get .b = g.b := rfl

@[simp] theorem RegSet.get_c (g : RegSet) : g.get .c = g.c := rfl

@[simp] theorem RegSet.get_d (g : RegSet) : g.get .d = g.d := rfl

@[simp] theorem RegSet.get_e (g : RegSet) : g.get .e = g.e := rfl

@[simp] theorem RegSet.get_h (g : RegSet) : g.get .h = g.h := rfl

@[simp] theorem RegSet.get_l (g : RegSet) : g.get .l = g.l := rfl

@[simp] theorem RegSet.setBC_a (g : RegSet) (v : Word) : (g.setBC v).a = g.a := rfl

@[simp] theorem RegSet.setBC_b (g : RegSet) (v : Word) : (g.setBC v).b = hiByte v := rfl

@[simp] theorem RegSet.setBC_c (g : RegSet) (v : Word) : (g.setBC v).c = loByte v := rfl

@[simp] theorem RegSet.setBC_d (g : RegSet) (v : Word) : (g.setBC v).d = g.d := rfl

@[simp] theorem RegSet.setBC_e (g : RegSet) (v : Word) : (g.setBC v).e = g.e := rfl

@[simp] theorem RegSet.setBC_h (g : RegSet) (v : Word) : (g.setBC v).h = g.h := rfl

@[simp] theorem RegSet.setBC_l (g : RegSet) (v : Word) : (g.setBC v).l = g.l := rfl

@[simp] theorem RegSet.setBC_f (g : RegSet) (v : Word) : (g.setBC v).f = g.f := rfl

@[simp] theorem RegSet.setDE_a (g : RegSet) (v : Word) : (g.setDE v).a = g.a := rfl

@[simp] theorem RegSet.setDE_b (g : RegSet) (v : Word) : (g.setDE v).b = g.b := rfl

@[simp] theorem RegSet.setDE_c (g : RegSet) (v : Word) : (g.setDE v).c = g.c := rfl

@[simp] theorem RegSet.setDE_d (g : RegSet) (v : Word) : (g.setDE v).d = hiByte v := rfl

@[simp] theorem RegSet.setDE_e (g : RegSet) (v : Word) : (g.setDE v).e = loByte v := rfl

@[simp] theorem RegSet.setDE_h (g : RegSet) (v : Word) : (g.setDE v).h = g.h := rfl

@[simp] theorem RegSet.setDE_l (g : RegSet) (v : Word) : (g.setDE v).l = g.l := rfl

@[simp] theorem RegSet.setDE_f (g : RegSet) (v : Word) : (g.setDE v).f = g.f := rfl

@[simp] theorem RegSet.setHL_a (g : RegSet) (v : Word) : (g.setHL v).a = g.a := rfl

@[simp] theorem RegSet.setHL_b (g : RegSet) (v : Word) : (g.setHL v).b = g.b := rfl

@[simp] theorem RegSet.setHL_c (g : RegSet) (v : Word) : (g.setHL v).c = g.c := rfl

@[simp] theorem RegSet.setHL_d (g : RegSet) (v : Word) : (g.setHL v).d = g.d := rfl

@[simp] theorem RegSet.setHL_e (g : RegSet) (v : Word) : (g.setHL v).e = g.e := rfl

@[simp] theorem RegSet.setHL_h (g : RegSet) (v : Word) : (g.setHL v).h = hiByte v := rfl

@[simp] theorem RegSet.setHL_l (g : RegSet) (v : Word) : (g.setHL v).l = loByte v := rfl

@[simp] theorem RegSet.setHL_f (g : RegSet) (v : Word) : (g.setHL v).f = g.f := rfl

@[simp] theorem RegSet.setAF_a (g : RegSet) (v : Word) : (g.setAF v).a = hiByte v := rfl

@[simp] theorem RegSet.setAF_b (g : RegSet) (v : Word) : (g.setAF v).b = g.b := rfl

@[simp] theorem RegSet.setAF_c (g : RegSet) (v : Word) : (g.setAF v).c = g.c := rfl

@[simp] theorem RegSet.setAF_d (g : RegSet) (v : Word) : (g.setAF v).d = g.d := rfl

@[simp] theorem RegSet.setAF_e (g : RegSet) (v : Word) : (g.setAF v).e = g.e := rfl

@[simp] theorem RegSet.setAF_h (g : RegSet) (v : Word) : (g.setAF v).h = g.h := rfl

@[simp] theorem RegSet.setAF_l (g : RegSet) (v : Word) : (g.setAF v).l = g.l := rfl

@[simp] theorem RegSet.setAF_f (g : RegSet) (v : Word) : (g.setAF v).f = loByte v := rfl

/-! ## The named updates, field by field -/

/-! ### `setReg` -/

@[simp] theorem State.setReg_shadow (s : State) (r : Reg8) (v : Byte) : (s.setReg r v).shadow = s.shadow := rfl

@[simp] theorem State.setReg_ixh (s : State) (r : Reg8) (v : Byte) : (s.setReg r v).ixh = s.ixh := rfl

@[simp] theorem State.setReg_ixl (s : State) (r : Reg8) (v : Byte) : (s.setReg r v).ixl = s.ixl := rfl

@[simp] theorem State.setReg_iyh (s : State) (r : Reg8) (v : Byte) : (s.setReg r v).iyh = s.iyh := rfl

@[simp] theorem State.setReg_iyl (s : State) (r : Reg8) (v : Byte) : (s.setReg r v).iyl = s.iyl := rfl

@[simp] theorem State.setReg_sp (s : State) (r : Reg8) (v : Byte) : (s.setReg r v).sp = s.sp := rfl

@[simp] theorem State.setReg_pc (s : State) (r : Reg8) (v : Byte) : (s.setReg r v).pc = s.pc := rfl

@[simp] theorem State.setReg_i (s : State) (r : Reg8) (v : Byte) : (s.setReg r v).i = s.i := rfl

@[simp] theorem State.setReg_r (s : State) (r : Reg8) (v : Byte) : (s.setReg r v).r = s.r := rfl

@[simp] theorem State.setReg_t (s : State) (r : Reg8) (v : Byte) : (s.setReg r v).t = s.t := rfl

@[simp] theorem State.setReg_iff (s : State) (r : Reg8) (v : Byte) : (s.setReg r v).iff = s.iff := rfl

@[simp] theorem State.setReg_im (s : State) (r : Reg8) (v : Byte) : (s.setReg r v).im = s.im := rfl

@[simp] theorem State.setReg_last (s : State) (r : Reg8) (v : Byte) : (s.setReg r v).last = s.last := rfl

@[simp] theorem State.setReg_mem (s : State) (r : Reg8) (v : Byte) : (s.setReg r v).mem = s.mem := rfl

@[simp] theorem State.setReg_readPort (s : State) (r : Reg8) (v : Byte) : (s.setReg r v).readPort = s.readPort := rfl

@[simp] theorem State.setReg_portReads (s : State) (r : Reg8) (v : Byte) : (s.setReg r v).portReads = s.portReads := rfl

@[simp] theorem State.setReg_portWrites (s : State) (r : Reg8) (v : Byte) : (s.setReg r v).portWrites = s.portWrites := rfl

@[simp] theorem State.setReg_cfg (s : State) (r : Reg8) (v : Byte) : (s.setReg r v).cfg = s.cfg := rfl

@[simp] theorem State.setReg_main (s : State) (r : Reg8) (v : Byte) : (s.setReg r v).main = s.main.set r v := rfl

/-! ### `setF` -/

@[simp] theorem State.setF_shadow (s : State) (f : Byte) : (s.setF f).shadow = s.shadow := rfl

@[simp] theorem State.setF_ixh (s : State) (f : Byte) : (s.setF f).ixh = s.ixh := rfl

@[simp] theorem State.setF_ixl (s : State) (f : Byte) : (s.setF f).ixl = s.ixl := rfl

@[simp] theorem State.setF_iyh (s : State) (f : Byte) : (s.setF f).iyh = s.iyh := rfl

@[simp] theorem State.setF_iyl (s : State) (f : Byte) : (s.setF f).iyl = s.iyl := rfl

@[simp] theorem State.setF_sp (s : State) (f : Byte) : (s.setF f).sp = s.sp := rfl

@[simp] theorem State.setF_pc (s : State) (f : Byte) : (s.setF f).pc = s.pc := rfl

@[simp] theorem State.setF_i (s : State) (f : Byte) : (s.setF f).i = s.i := rfl

@[simp] theorem State.setF_r (s : State) (f : Byte) : (s.setF f).r = s.r := rfl

@[simp] theorem State.setF_t (s : State) (f : Byte) : (s.setF f).t = s.t := rfl

@[simp] theorem State.setF_iff (s : State) (f : Byte) : (s.setF f).iff = s.iff := rfl

@[simp] theorem State.setF_im (s : State) (f : Byte) : (s.setF f).im = s.im := rfl

@[simp] theorem State.setF_last (s : State) (f : Byte) : (s.setF f).last = s.last := rfl

@[simp] theorem State.setF_mem (s : State) (f : Byte) : (s.setF f).mem = s.mem := rfl

@[simp] theorem State.setF_readPort (s : State) (f : Byte) : (s.setF f).readPort = s.readPort := rfl

@[simp] theorem State.setF_portReads (s : State) (f : Byte) : (s.setF f).portReads = s.portReads := rfl

@[simp] theorem State.setF_portWrites (s : State) (f : Byte) : (s.setF f).portWrites = s.portWrites := rfl

@[simp] theorem State.setF_cfg (s : State) (f : Byte) : (s.setF f).cfg = s.cfg := rfl

@[simp] theorem State.setF_main (s : State) (f : Byte) : (s.setF f).main = { s.main with f := f } := rfl

/-! ### `setResA` -/

@[simp] theorem State.setResA_shadow (s : State) (x : Byte × Byte) : (s.setResA x).shadow = s.shadow := rfl

@[simp] theorem State.setResA_ixh (s : State) (x : Byte × Byte) : (s.setResA x).ixh = s.ixh := rfl

@[simp] theorem State.setResA_ixl (s : State) (x : Byte × Byte) : (s.setResA x).ixl = s.ixl := rfl

@[simp] theorem State.setResA_iyh (s : State) (x : Byte × Byte) : (s.setResA x).iyh = s.iyh := rfl

@[simp] theorem State.setResA_iyl (s : State) (x : Byte × Byte) : (s.setResA x).iyl = s.iyl := rfl

@[simp] theorem State.setResA_sp (s : State) (x : Byte × Byte) : (s.setResA x).sp = s.sp := rfl

@[simp] theorem State.setResA_pc (s : State) (x : Byte × Byte) : (s.setResA x).pc = s.pc := rfl

@[simp] theorem State.setResA_i (s : State) (x : Byte × Byte) : (s.setResA x).i = s.i := rfl

@[simp] theorem State.setResA_r (s : State) (x : Byte × Byte) : (s.setResA x).r = s.r := rfl

@[simp] theorem State.setResA_t (s : State) (x : Byte × Byte) : (s.setResA x).t = s.t := rfl

@[simp] theorem State.setResA_iff (s : State) (x : Byte × Byte) : (s.setResA x).iff = s.iff := rfl

@[simp] theorem State.setResA_im (s : State) (x : Byte × Byte) : (s.setResA x).im = s.im := rfl

@[simp] theorem State.setResA_last (s : State) (x : Byte × Byte) : (s.setResA x).last = s.last := rfl

@[simp] theorem State.setResA_mem (s : State) (x : Byte × Byte) : (s.setResA x).mem = s.mem := rfl

@[simp] theorem State.setResA_readPort (s : State) (x : Byte × Byte) : (s.setResA x).readPort = s.readPort := rfl

@[simp] theorem State.setResA_portReads (s : State) (x : Byte × Byte) : (s.setResA x).portReads = s.portReads := rfl

@[simp] theorem State.setResA_portWrites (s : State) (x : Byte × Byte) : (s.setResA x).portWrites = s.portWrites := rfl

@[simp] theorem State.setResA_cfg (s : State) (x : Byte × Byte) : (s.setResA x).cfg = s.cfg := rfl

@[simp] theorem State.setResA_main (s : State) (x : Byte × Byte) :
    (s.setResA x).main = { s.main with a := x.1, f := x.2 } := rfl

/-! ### `setResReg` -/

@[simp] theorem State.setResReg_shadow (s : State) (r : Reg8) (x : Byte × Byte) : (s.setResReg r x).shadow = s.shadow := rfl

@[simp] theorem State.setResReg_ixh (s : State) (r : Reg8) (x : Byte × Byte) : (s.setResReg r x).ixh = s.ixh := rfl

@[simp] theorem State.setResReg_ixl (s : State) (r : Reg8) (x : Byte × Byte) : (s.setResReg r x).ixl = s.ixl := rfl

@[simp] theorem State.setResReg_iyh (s : State) (r : Reg8) (x : Byte × Byte) : (s.setResReg r x).iyh = s.iyh := rfl

@[simp] theorem State.setResReg_iyl (s : State) (r : Reg8) (x : Byte × Byte) : (s.setResReg r x).iyl = s.iyl := rfl

@[simp] theorem State.setResReg_sp (s : State) (r : Reg8) (x : Byte × Byte) : (s.setResReg r x).sp = s.sp := rfl

@[simp] theorem State.setResReg_pc (s : State) (r : Reg8) (x : Byte × Byte) : (s.setResReg r x).pc = s.pc := rfl

@[simp] theorem State.setResReg_i (s : State) (r : Reg8) (x : Byte × Byte) : (s.setResReg r x).i = s.i := rfl

@[simp] theorem State.setResReg_r (s : State) (r : Reg8) (x : Byte × Byte) : (s.setResReg r x).r = s.r := rfl

@[simp] theorem State.setResReg_t (s : State) (r : Reg8) (x : Byte × Byte) : (s.setResReg r x).t = s.t := rfl

@[simp] theorem State.setResReg_iff (s : State) (r : Reg8) (x : Byte × Byte) : (s.setResReg r x).iff = s.iff := rfl

@[simp] theorem State.setResReg_im (s : State) (r : Reg8) (x : Byte × Byte) : (s.setResReg r x).im = s.im := rfl

@[simp] theorem State.setResReg_last (s : State) (r : Reg8) (x : Byte × Byte) : (s.setResReg r x).last = s.last := rfl

@[simp] theorem State.setResReg_mem (s : State) (r : Reg8) (x : Byte × Byte) : (s.setResReg r x).mem = s.mem := rfl

@[simp] theorem State.setResReg_readPort (s : State) (r : Reg8) (x : Byte × Byte) :
    (s.setResReg r x).readPort = s.readPort := rfl

@[simp] theorem State.setResReg_portReads (s : State) (r : Reg8) (x : Byte × Byte) :
    (s.setResReg r x).portReads = s.portReads := rfl

@[simp] theorem State.setResReg_portWrites (s : State) (r : Reg8) (x : Byte × Byte) :
    (s.setResReg r x).portWrites = s.portWrites := rfl

@[simp] theorem State.setResReg_cfg (s : State) (r : Reg8) (x : Byte × Byte) : (s.setResReg r x).cfg = s.cfg := rfl

@[simp] theorem State.setResReg_main (s : State) (r : Reg8) (x : Byte × Byte) :
    (s.setResReg r x).main = { s.main.set r x.1 with f := x.2 } := rfl

/-! ### `setBC` -/

@[simp] theorem State.setBC_shadow (s : State) (v : Word) : (s.setBC v).shadow = s.shadow := rfl

@[simp] theorem State.setBC_ixh (s : State) (v : Word) : (s.setBC v).ixh = s.ixh := rfl

@[simp] theorem State.setBC_ixl (s : State) (v : Word) : (s.setBC v).ixl = s.ixl := rfl

@[simp] theorem State.setBC_iyh (s : State) (v : Word) : (s.setBC v).iyh = s.iyh := rfl

@[simp] theorem State.setBC_iyl (s : State) (v : Word) : (s.setBC v).iyl = s.iyl := rfl

@[simp] theorem State.setBC_sp (s : State) (v : Word) : (s.setBC v).sp = s.sp := rfl

@[simp] theorem State.setBC_pc (s : State) (v : Word) : (s.setBC v).pc = s.pc := rfl

@[simp] theorem State.setBC_i (s : State) (v : Word) : (s.setBC v).i = s.i := rfl

@[simp] theorem State.setBC_r (s : State) (v : Word) : (s.setBC v).r = s.r := rfl

@[simp] theorem State.setBC_t (s : State) (v : Word) : (s.setBC v).t = s.t := rfl

@[simp] theorem State.setBC_iff (s : State) (v : Word) : (s.setBC v).iff = s.iff := rfl

@[simp] theorem State.setBC_im (s : State) (v : Word) : (s.setBC v).im = s.im := rfl

@[simp] theorem State.setBC_last (s : State) (v : Word) : (s.setBC v).last = s.last := rfl

@[simp] theorem State.setBC_mem (s : State) (v : Word) : (s.setBC v).mem = s.mem := rfl

@[simp] theorem State.setBC_readPort (s : State) (v : Word) : (s.setBC v).readPort = s.readPort := rfl

@[simp] theorem State.setBC_portReads (s : State) (v : Word) : (s.setBC v).portReads = s.portReads := rfl

@[simp] theorem State.setBC_portWrites (s : State) (v : Word) : (s.setBC v).portWrites = s.portWrites := rfl

@[simp] theorem State.setBC_cfg (s : State) (v : Word) : (s.setBC v).cfg = s.cfg := rfl

@[simp] theorem State.setBC_main (s : State) (v : Word) : (s.setBC v).main = s.main.setBC v := rfl

/-! ### `setDE` -/

@[simp] theorem State.setDE_shadow (s : State) (v : Word) : (s.setDE v).shadow = s.shadow := rfl

@[simp] theorem State.setDE_ixh (s : State) (v : Word) : (s.setDE v).ixh = s.ixh := rfl

@[simp] theorem State.setDE_ixl (s : State) (v : Word) : (s.setDE v).ixl = s.ixl := rfl

@[simp] theorem State.setDE_iyh (s : State) (v : Word) : (s.setDE v).iyh = s.iyh := rfl

@[simp] theorem State.setDE_iyl (s : State) (v : Word) : (s.setDE v).iyl = s.iyl := rfl

@[simp] theorem State.setDE_sp (s : State) (v : Word) : (s.setDE v).sp = s.sp := rfl

@[simp] theorem State.setDE_pc (s : State) (v : Word) : (s.setDE v).pc = s.pc := rfl

@[simp] theorem State.setDE_i (s : State) (v : Word) : (s.setDE v).i = s.i := rfl

@[simp] theorem State.setDE_r (s : State) (v : Word) : (s.setDE v).r = s.r := rfl

@[simp] theorem State.setDE_t (s : State) (v : Word) : (s.setDE v).t = s.t := rfl

@[simp] theorem State.setDE_iff (s : State) (v : Word) : (s.setDE v).iff = s.iff := rfl

@[simp] theorem State.setDE_im (s : State) (v : Word) : (s.setDE v).im = s.im := rfl

@[simp] theorem State.setDE_last (s : State) (v : Word) : (s.setDE v).last = s.last := rfl

@[simp] theorem State.setDE_mem (s : State) (v : Word) : (s.setDE v).mem = s.mem := rfl

@[simp] theorem State.setDE_readPort (s : State) (v : Word) : (s.setDE v).readPort = s.readPort := rfl

@[simp] theorem State.setDE_portReads (s : State) (v : Word) : (s.setDE v).portReads = s.portReads := rfl

@[simp] theorem State.setDE_portWrites (s : State) (v : Word) : (s.setDE v).portWrites = s.portWrites := rfl

@[simp] theorem State.setDE_cfg (s : State) (v : Word) : (s.setDE v).cfg = s.cfg := rfl

@[simp] theorem State.setDE_main (s : State) (v : Word) : (s.setDE v).main = s.main.setDE v := rfl

/-! ### `setHL` -/

@[simp] theorem State.setHL_shadow (s : State) (v : Word) : (s.setHL v).shadow = s.shadow := rfl

@[simp] theorem State.setHL_ixh (s : State) (v : Word) : (s.setHL v).ixh = s.ixh := rfl

@[simp] theorem State.setHL_ixl (s : State) (v : Word) : (s.setHL v).ixl = s.ixl := rfl

@[simp] theorem State.setHL_iyh (s : State) (v : Word) : (s.setHL v).iyh = s.iyh := rfl

@[simp] theorem State.setHL_iyl (s : State) (v : Word) : (s.setHL v).iyl = s.iyl := rfl

@[simp] theorem State.setHL_sp (s : State) (v : Word) : (s.setHL v).sp = s.sp := rfl

@[simp] theorem State.setHL_pc (s : State) (v : Word) : (s.setHL v).pc = s.pc := rfl

@[simp] theorem State.setHL_i (s : State) (v : Word) : (s.setHL v).i = s.i := rfl

@[simp] theorem State.setHL_r (s : State) (v : Word) : (s.setHL v).r = s.r := rfl

@[simp] theorem State.setHL_t (s : State) (v : Word) : (s.setHL v).t = s.t := rfl

@[simp] theorem State.setHL_iff (s : State) (v : Word) : (s.setHL v).iff = s.iff := rfl

@[simp] theorem State.setHL_im (s : State) (v : Word) : (s.setHL v).im = s.im := rfl

@[simp] theorem State.setHL_last (s : State) (v : Word) : (s.setHL v).last = s.last := rfl

@[simp] theorem State.setHL_mem (s : State) (v : Word) : (s.setHL v).mem = s.mem := rfl

@[simp] theorem State.setHL_readPort (s : State) (v : Word) : (s.setHL v).readPort = s.readPort := rfl

@[simp] theorem State.setHL_portReads (s : State) (v : Word) : (s.setHL v).portReads = s.portReads := rfl

@[simp] theorem State.setHL_portWrites (s : State) (v : Word) : (s.setHL v).portWrites = s.portWrites := rfl

@[simp] theorem State.setHL_cfg (s : State) (v : Word) : (s.setHL v).cfg = s.cfg := rfl

@[simp] theorem State.setHL_main (s : State) (v : Word) : (s.setHL v).main = s.main.setHL v := rfl

/-! ### `setSP` -/

@[simp] theorem State.setSP_main (s : State) (v : Word) : (s.setSP v).main = s.main := rfl

@[simp] theorem State.setSP_shadow (s : State) (v : Word) : (s.setSP v).shadow = s.shadow := rfl

@[simp] theorem State.setSP_ixh (s : State) (v : Word) : (s.setSP v).ixh = s.ixh := rfl

@[simp] theorem State.setSP_ixl (s : State) (v : Word) : (s.setSP v).ixl = s.ixl := rfl

@[simp] theorem State.setSP_iyh (s : State) (v : Word) : (s.setSP v).iyh = s.iyh := rfl

@[simp] theorem State.setSP_iyl (s : State) (v : Word) : (s.setSP v).iyl = s.iyl := rfl

@[simp] theorem State.setSP_pc (s : State) (v : Word) : (s.setSP v).pc = s.pc := rfl

@[simp] theorem State.setSP_i (s : State) (v : Word) : (s.setSP v).i = s.i := rfl

@[simp] theorem State.setSP_r (s : State) (v : Word) : (s.setSP v).r = s.r := rfl

@[simp] theorem State.setSP_t (s : State) (v : Word) : (s.setSP v).t = s.t := rfl

@[simp] theorem State.setSP_iff (s : State) (v : Word) : (s.setSP v).iff = s.iff := rfl

@[simp] theorem State.setSP_im (s : State) (v : Word) : (s.setSP v).im = s.im := rfl

@[simp] theorem State.setSP_last (s : State) (v : Word) : (s.setSP v).last = s.last := rfl

@[simp] theorem State.setSP_mem (s : State) (v : Word) : (s.setSP v).mem = s.mem := rfl

@[simp] theorem State.setSP_readPort (s : State) (v : Word) : (s.setSP v).readPort = s.readPort := rfl

@[simp] theorem State.setSP_portReads (s : State) (v : Word) : (s.setSP v).portReads = s.portReads := rfl

@[simp] theorem State.setSP_portWrites (s : State) (v : Word) : (s.setSP v).portWrites = s.portWrites := rfl

@[simp] theorem State.setSP_cfg (s : State) (v : Word) : (s.setSP v).cfg = s.cfg := rfl

@[simp] theorem State.setSP_sp (s : State) (v : Word) : (s.setSP v).sp = v := rfl

/-! ### `setRp` -/

@[simp] theorem State.setRp_shadow (s : State) (p : RegPair) (v : Word) :
    (s.setRp p v).shadow = s.shadow := by cases p <;> rfl

@[simp] theorem State.setRp_ixh (s : State) (p : RegPair) (v : Word) : (s.setRp p v).ixh = s.ixh := by cases p <;> rfl

@[simp] theorem State.setRp_ixl (s : State) (p : RegPair) (v : Word) : (s.setRp p v).ixl = s.ixl := by cases p <;> rfl

@[simp] theorem State.setRp_iyh (s : State) (p : RegPair) (v : Word) : (s.setRp p v).iyh = s.iyh := by cases p <;> rfl

@[simp] theorem State.setRp_iyl (s : State) (p : RegPair) (v : Word) : (s.setRp p v).iyl = s.iyl := by cases p <;> rfl

@[simp] theorem State.setRp_pc (s : State) (p : RegPair) (v : Word) : (s.setRp p v).pc = s.pc := by cases p <;> rfl

@[simp] theorem State.setRp_i (s : State) (p : RegPair) (v : Word) : (s.setRp p v).i = s.i := by cases p <;> rfl

@[simp] theorem State.setRp_r (s : State) (p : RegPair) (v : Word) : (s.setRp p v).r = s.r := by cases p <;> rfl

@[simp] theorem State.setRp_t (s : State) (p : RegPair) (v : Word) : (s.setRp p v).t = s.t := by cases p <;> rfl

@[simp] theorem State.setRp_iff (s : State) (p : RegPair) (v : Word) : (s.setRp p v).iff = s.iff := by cases p <;> rfl

@[simp] theorem State.setRp_im (s : State) (p : RegPair) (v : Word) : (s.setRp p v).im = s.im := by cases p <;> rfl

@[simp] theorem State.setRp_last (s : State) (p : RegPair) (v : Word) : (s.setRp p v).last = s.last := by cases p <;> rfl

@[simp] theorem State.setRp_mem (s : State) (p : RegPair) (v : Word) : (s.setRp p v).mem = s.mem := by cases p <;> rfl

@[simp] theorem State.setRp_readPort (s : State) (p : RegPair) (v : Word) :
    (s.setRp p v).readPort = s.readPort := by cases p <;> rfl

@[simp] theorem State.setRp_portReads (s : State) (p : RegPair) (v : Word) :
    (s.setRp p v).portReads = s.portReads := by cases p <;> rfl

@[simp] theorem State.setRp_portWrites (s : State) (p : RegPair) (v : Word) :
    (s.setRp p v).portWrites = s.portWrites := by cases p <;> rfl

@[simp] theorem State.setRp_cfg (s : State) (p : RegPair) (v : Word) : (s.setRp p v).cfg = s.cfg := by cases p <;> rfl

/-! ### `setRp2` -/

@[simp] theorem State.setRp2_shadow (s : State) (p : StackPair) (v : Word) :
    (s.setRp2 p v).shadow = s.shadow := by cases p <;> rfl

@[simp] theorem State.setRp2_ixh (s : State) (p : StackPair) (v : Word) : (s.setRp2 p v).ixh = s.ixh := by cases p <;> rfl

@[simp] theorem State.setRp2_ixl (s : State) (p : StackPair) (v : Word) : (s.setRp2 p v).ixl = s.ixl := by cases p <;> rfl

@[simp] theorem State.setRp2_iyh (s : State) (p : StackPair) (v : Word) : (s.setRp2 p v).iyh = s.iyh := by cases p <;> rfl

@[simp] theorem State.setRp2_iyl (s : State) (p : StackPair) (v : Word) : (s.setRp2 p v).iyl = s.iyl := by cases p <;> rfl

@[simp] theorem State.setRp2_sp (s : State) (p : StackPair) (v : Word) : (s.setRp2 p v).sp = s.sp := by cases p <;> rfl

@[simp] theorem State.setRp2_pc (s : State) (p : StackPair) (v : Word) : (s.setRp2 p v).pc = s.pc := by cases p <;> rfl

@[simp] theorem State.setRp2_i (s : State) (p : StackPair) (v : Word) : (s.setRp2 p v).i = s.i := by cases p <;> rfl

@[simp] theorem State.setRp2_r (s : State) (p : StackPair) (v : Word) : (s.setRp2 p v).r = s.r := by cases p <;> rfl

@[simp] theorem State.setRp2_t (s : State) (p : StackPair) (v : Word) : (s.setRp2 p v).t = s.t := by cases p <;> rfl

@[simp] theorem State.setRp2_iff (s : State) (p : StackPair) (v : Word) : (s.setRp2 p v).iff = s.iff := by cases p <;> rfl

@[simp] theorem State.setRp2_im (s : State) (p : StackPair) (v : Word) : (s.setRp2 p v).im = s.im := by cases p <;> rfl

@[simp] theorem State.setRp2_last (s : State) (p : StackPair) (v : Word) : (s.setRp2 p v).last = s.last := by cases p <;> rfl

@[simp] theorem State.setRp2_mem (s : State) (p : StackPair) (v : Word) : (s.setRp2 p v).mem = s.mem := by cases p <;> rfl

@[simp] theorem State.setRp2_readPort (s : State) (p : StackPair) (v : Word) :
    (s.setRp2 p v).readPort = s.readPort := by cases p <;> rfl

@[simp] theorem State.setRp2_portReads (s : State) (p : StackPair) (v : Word) :
    (s.setRp2 p v).portReads = s.portReads := by cases p <;> rfl

@[simp] theorem State.setRp2_portWrites (s : State) (p : StackPair) (v : Word) :
    (s.setRp2 p v).portWrites = s.portWrites := by cases p <;> rfl

@[simp] theorem State.setRp2_cfg (s : State) (p : StackPair) (v : Word) : (s.setRp2 p v).cfg = s.cfg := by cases p <;> rfl

/-! ### `setXY` -/

@[simp] theorem State.setXY_main (s : State) (x : XY) (v : Word) : (s.setXY x v).main = s.main := by cases x <;> rfl

@[simp] theorem State.setXY_shadow (s : State) (x : XY) (v : Word) : (s.setXY x v).shadow = s.shadow := by cases x <;> rfl

@[simp] theorem State.setXY_sp (s : State) (x : XY) (v : Word) : (s.setXY x v).sp = s.sp := by cases x <;> rfl

@[simp] theorem State.setXY_pc (s : State) (x : XY) (v : Word) : (s.setXY x v).pc = s.pc := by cases x <;> rfl

@[simp] theorem State.setXY_i (s : State) (x : XY) (v : Word) : (s.setXY x v).i = s.i := by cases x <;> rfl

@[simp] theorem State.setXY_r (s : State) (x : XY) (v : Word) : (s.setXY x v).r = s.r := by cases x <;> rfl

@[simp] theorem State.setXY_t (s : State) (x : XY) (v : Word) : (s.setXY x v).t = s.t := by cases x <;> rfl

@[simp] theorem State.setXY_iff (s : State) (x : XY) (v : Word) : (s.setXY x v).iff = s.iff := by cases x <;> rfl

@[simp] theorem State.setXY_im (s : State) (x : XY) (v : Word) : (s.setXY x v).im = s.im := by cases x <;> rfl

@[simp] theorem State.setXY_last (s : State) (x : XY) (v : Word) : (s.setXY x v).last = s.last := by cases x <;> rfl

@[simp] theorem State.setXY_mem (s : State) (x : XY) (v : Word) : (s.setXY x v).mem = s.mem := by cases x <;> rfl

@[simp] theorem State.setXY_readPort (s : State) (x : XY) (v : Word) :
    (s.setXY x v).readPort = s.readPort := by cases x <;> rfl

@[simp] theorem State.setXY_portReads (s : State) (x : XY) (v : Word) :
    (s.setXY x v).portReads = s.portReads := by cases x <;> rfl

@[simp] theorem State.setXY_portWrites (s : State) (x : XY) (v : Word) :
    (s.setXY x v).portWrites = s.portWrites := by cases x <;> rfl

@[simp] theorem State.setXY_cfg (s : State) (x : XY) (v : Word) : (s.setXY x v).cfg = s.cfg := by cases x <;> rfl

/-! ### `setHalf` -/

@[simp] theorem State.setHalf_main (s : State) (x : XY) (h : Half) (v : Byte) :
    (s.setHalf x h v).main = s.main := by cases x <;> cases h <;> rfl

@[simp] theorem State.setHalf_shadow (s : State) (x : XY) (h : Half) (v : Byte) :
    (s.setHalf x h v).shadow = s.shadow := by cases x <;> cases h <;> rfl

@[simp] theorem State.setHalf_sp (s : State) (x : XY) (h : Half) (v : Byte) :
    (s.setHalf x h v).sp = s.sp := by cases x <;> cases h <;> rfl

@[simp] theorem State.setHalf_pc (s : State) (x : XY) (h : Half) (v : Byte) :
    (s.setHalf x h v).pc = s.pc := by cases x <;> cases h <;> rfl

@[simp] theorem State.setHalf_i (s : State) (x : XY) (h : Half) (v : Byte) :
    (s.setHalf x h v).i = s.i := by cases x <;> cases h <;> rfl

@[simp] theorem State.setHalf_r (s : State) (x : XY) (h : Half) (v : Byte) :
    (s.setHalf x h v).r = s.r := by cases x <;> cases h <;> rfl

@[simp] theorem State.setHalf_t (s : State) (x : XY) (h : Half) (v : Byte) :
    (s.setHalf x h v).t = s.t := by cases x <;> cases h <;> rfl

@[simp] theorem State.setHalf_iff (s : State) (x : XY) (h : Half) (v : Byte) :
    (s.setHalf x h v).iff = s.iff := by cases x <;> cases h <;> rfl

@[simp] theorem State.setHalf_im (s : State) (x : XY) (h : Half) (v : Byte) :
    (s.setHalf x h v).im = s.im := by cases x <;> cases h <;> rfl

@[simp] theorem State.setHalf_last (s : State) (x : XY) (h : Half) (v : Byte) :
    (s.setHalf x h v).last = s.last := by cases x <;> cases h <;> rfl

@[simp] theorem State.setHalf_mem (s : State) (x : XY) (h : Half) (v : Byte) :
    (s.setHalf x h v).mem = s.mem := by cases x <;> cases h <;> rfl

@[simp] theorem State.setHalf_readPort (s : State) (x : XY) (h : Half) (v : Byte) :
    (s.setHalf x h v).readPort = s.readPort := by cases x <;> cases h <;> rfl

@[simp] theorem State.setHalf_portReads (s : State) (x : XY) (h : Half) (v : Byte) :
    (s.setHalf x h v).portReads = s.portReads := by cases x <;> cases h <;> rfl

@[simp] theorem State.setHalf_portWrites (s : State) (x : XY) (h : Half) (v : Byte) :
    (s.setHalf x h v).portWrites = s.portWrites := by cases x <;> cases h <;> rfl

@[simp] theorem State.setHalf_cfg (s : State) (x : XY) (h : Half) (v : Byte) :
    (s.setHalf x h v).cfg = s.cfg := by cases x <;> cases h <;> rfl

/-! ### `writeByte` -/

@[simp] theorem State.writeByte_main (s : State) (a : Word) (v : Byte) :
    (s.writeByte a v).main = s.main := by unfold State.writeByte; split <;> rfl

@[simp] theorem State.writeByte_shadow (s : State) (a : Word) (v : Byte) :
    (s.writeByte a v).shadow = s.shadow := by unfold State.writeByte; split <;> rfl

@[simp] theorem State.writeByte_ixh (s : State) (a : Word) (v : Byte) :
    (s.writeByte a v).ixh = s.ixh := by unfold State.writeByte; split <;> rfl

@[simp] theorem State.writeByte_ixl (s : State) (a : Word) (v : Byte) :
    (s.writeByte a v).ixl = s.ixl := by unfold State.writeByte; split <;> rfl

@[simp] theorem State.writeByte_iyh (s : State) (a : Word) (v : Byte) :
    (s.writeByte a v).iyh = s.iyh := by unfold State.writeByte; split <;> rfl

@[simp] theorem State.writeByte_iyl (s : State) (a : Word) (v : Byte) :
    (s.writeByte a v).iyl = s.iyl := by unfold State.writeByte; split <;> rfl

@[simp] theorem State.writeByte_sp (s : State) (a : Word) (v : Byte) :
    (s.writeByte a v).sp = s.sp := by unfold State.writeByte; split <;> rfl

@[simp] theorem State.writeByte_pc (s : State) (a : Word) (v : Byte) :
    (s.writeByte a v).pc = s.pc := by unfold State.writeByte; split <;> rfl

@[simp] theorem State.writeByte_i (s : State) (a : Word) (v : Byte) :
    (s.writeByte a v).i = s.i := by unfold State.writeByte; split <;> rfl

@[simp] theorem State.writeByte_r (s : State) (a : Word) (v : Byte) :
    (s.writeByte a v).r = s.r := by unfold State.writeByte; split <;> rfl

@[simp] theorem State.writeByte_t (s : State) (a : Word) (v : Byte) :
    (s.writeByte a v).t = s.t := by unfold State.writeByte; split <;> rfl

@[simp] theorem State.writeByte_iff (s : State) (a : Word) (v : Byte) :
    (s.writeByte a v).iff = s.iff := by unfold State.writeByte; split <;> rfl

@[simp] theorem State.writeByte_im (s : State) (a : Word) (v : Byte) :
    (s.writeByte a v).im = s.im := by unfold State.writeByte; split <;> rfl

@[simp] theorem State.writeByte_last (s : State) (a : Word) (v : Byte) :
    (s.writeByte a v).last = s.last := by unfold State.writeByte; split <;> rfl

@[simp] theorem State.writeByte_readPort (s : State) (a : Word) (v : Byte) :
    (s.writeByte a v).readPort = s.readPort := by unfold State.writeByte; split <;> rfl

@[simp] theorem State.writeByte_portReads (s : State) (a : Word) (v : Byte) :
    (s.writeByte a v).portReads = s.portReads := by unfold State.writeByte; split <;> rfl

@[simp] theorem State.writeByte_portWrites (s : State) (a : Word) (v : Byte) :
    (s.writeByte a v).portWrites = s.portWrites := by unfold State.writeByte; split <;> rfl

@[simp] theorem State.writeByte_cfg (s : State) (a : Word) (v : Byte) :
    (s.writeByte a v).cfg = s.cfg := by unfold State.writeByte; split <;> rfl

/-! ### `writeWord` -/

@[simp] theorem State.writeWord_main (s : State) (a v : Word) : (s.writeWord a v).main = s.main := by simp [State.writeWord]

@[simp] theorem State.writeWord_shadow (s : State) (a v : Word) :
    (s.writeWord a v).shadow = s.shadow := by simp [State.writeWord]

@[simp] theorem State.writeWord_ixh (s : State) (a v : Word) : (s.writeWord a v).ixh = s.ixh := by simp [State.writeWord]

@[simp] theorem State.writeWord_ixl (s : State) (a v : Word) : (s.writeWord a v).ixl = s.ixl := by simp [State.writeWord]

@[simp] theorem State.writeWord_iyh (s : State) (a v : Word) : (s.writeWord a v).iyh = s.iyh := by simp [State.writeWord]

@[simp] theorem State.writeWord_iyl (s : State) (a v : Word) : (s.writeWord a v).iyl = s.iyl := by simp [State.writeWord]

@[simp] theorem State.writeWord_sp (s : State) (a v : Word) : (s.writeWord a v).sp = s.sp := by simp [State.writeWord]

@[simp] theorem State.writeWord_pc (s : State) (a v : Word) : (s.writeWord a v).pc = s.pc := by simp [State.writeWord]

@[simp] theorem State.writeWord_i (s : State) (a v : Word) : (s.writeWord a v).i = s.i := by simp [State.writeWord]

@[simp] theorem State.writeWord_r (s : State) (a v : Word) : (s.writeWord a v).r = s.r := by simp [State.writeWord]

@[simp] theorem State.writeWord_t (s : State) (a v : Word) : (s.writeWord a v).t = s.t := by simp [State.writeWord]

@[simp] theorem State.writeWord_iff (s : State) (a v : Word) : (s.writeWord a v).iff = s.iff := by simp [State.writeWord]

@[simp] theorem State.writeWord_im (s : State) (a v : Word) : (s.writeWord a v).im = s.im := by simp [State.writeWord]

@[simp] theorem State.writeWord_last (s : State) (a v : Word) : (s.writeWord a v).last = s.last := by simp [State.writeWord]

@[simp] theorem State.writeWord_readPort (s : State) (a v : Word) :
    (s.writeWord a v).readPort = s.readPort := by simp [State.writeWord]

@[simp] theorem State.writeWord_portReads (s : State) (a v : Word) :
    (s.writeWord a v).portReads = s.portReads := by simp [State.writeWord]

@[simp] theorem State.writeWord_portWrites (s : State) (a v : Word) :
    (s.writeWord a v).portWrites = s.portWrites := by simp [State.writeWord]

@[simp] theorem State.writeWord_cfg (s : State) (a v : Word) : (s.writeWord a v).cfg = s.cfg := by simp [State.writeWord]

/-! ### `pokeByte` -/

@[simp] theorem State.pokeByte_main (s : State) (a : Word) (v : Byte) : (s.pokeByte a v).main = s.main := rfl

@[simp] theorem State.pokeByte_shadow (s : State) (a : Word) (v : Byte) : (s.pokeByte a v).shadow = s.shadow := rfl

@[simp] theorem State.pokeByte_ixh (s : State) (a : Word) (v : Byte) : (s.pokeByte a v).ixh = s.ixh := rfl

@[simp] theorem State.pokeByte_ixl (s : State) (a : Word) (v : Byte) : (s.pokeByte a v).ixl = s.ixl := rfl

@[simp] theorem State.pokeByte_iyh (s : State) (a : Word) (v : Byte) : (s.pokeByte a v).iyh = s.iyh := rfl

@[simp] theorem State.pokeByte_iyl (s : State) (a : Word) (v : Byte) : (s.pokeByte a v).iyl = s.iyl := rfl

@[simp] theorem State.pokeByte_sp (s : State) (a : Word) (v : Byte) : (s.pokeByte a v).sp = s.sp := rfl

@[simp] theorem State.pokeByte_pc (s : State) (a : Word) (v : Byte) : (s.pokeByte a v).pc = s.pc := rfl

@[simp] theorem State.pokeByte_i (s : State) (a : Word) (v : Byte) : (s.pokeByte a v).i = s.i := rfl

@[simp] theorem State.pokeByte_r (s : State) (a : Word) (v : Byte) : (s.pokeByte a v).r = s.r := rfl

@[simp] theorem State.pokeByte_t (s : State) (a : Word) (v : Byte) : (s.pokeByte a v).t = s.t := rfl

@[simp] theorem State.pokeByte_iff (s : State) (a : Word) (v : Byte) : (s.pokeByte a v).iff = s.iff := rfl

@[simp] theorem State.pokeByte_im (s : State) (a : Word) (v : Byte) : (s.pokeByte a v).im = s.im := rfl

@[simp] theorem State.pokeByte_last (s : State) (a : Word) (v : Byte) : (s.pokeByte a v).last = s.last := rfl

@[simp] theorem State.pokeByte_readPort (s : State) (a : Word) (v : Byte) : (s.pokeByte a v).readPort = s.readPort := rfl

@[simp] theorem State.pokeByte_portReads (s : State) (a : Word) (v : Byte) : (s.pokeByte a v).portReads = s.portReads := rfl

@[simp] theorem State.pokeByte_portWrites (s : State) (a : Word) (v : Byte) :
    (s.pokeByte a v).portWrites = s.portWrites := rfl

@[simp] theorem State.pokeByte_cfg (s : State) (a : Word) (v : Byte) : (s.pokeByte a v).cfg = s.cfg := rfl

/-! ### `incR` -/

@[simp] theorem State.incR_main (s : State) (n : Nat) : (s.incR n).main = s.main := rfl

@[simp] theorem State.incR_shadow (s : State) (n : Nat) : (s.incR n).shadow = s.shadow := rfl

@[simp] theorem State.incR_ixh (s : State) (n : Nat) : (s.incR n).ixh = s.ixh := rfl

@[simp] theorem State.incR_ixl (s : State) (n : Nat) : (s.incR n).ixl = s.ixl := rfl

@[simp] theorem State.incR_iyh (s : State) (n : Nat) : (s.incR n).iyh = s.iyh := rfl

@[simp] theorem State.incR_iyl (s : State) (n : Nat) : (s.incR n).iyl = s.iyl := rfl

@[simp] theorem State.incR_sp (s : State) (n : Nat) : (s.incR n).sp = s.sp := rfl

@[simp] theorem State.incR_pc (s : State) (n : Nat) : (s.incR n).pc = s.pc := rfl

@[simp] theorem State.incR_i (s : State) (n : Nat) : (s.incR n).i = s.i := rfl

@[simp] theorem State.incR_t (s : State) (n : Nat) : (s.incR n).t = s.t := rfl

@[simp] theorem State.incR_iff (s : State) (n : Nat) : (s.incR n).iff = s.iff := rfl

@[simp] theorem State.incR_im (s : State) (n : Nat) : (s.incR n).im = s.im := rfl

@[simp] theorem State.incR_last (s : State) (n : Nat) : (s.incR n).last = s.last := rfl

@[simp] theorem State.incR_mem (s : State) (n : Nat) : (s.incR n).mem = s.mem := rfl

@[simp] theorem State.incR_readPort (s : State) (n : Nat) : (s.incR n).readPort = s.readPort := rfl

@[simp] theorem State.incR_portReads (s : State) (n : Nat) : (s.incR n).portReads = s.portReads := rfl

@[simp] theorem State.incR_portWrites (s : State) (n : Nat) : (s.incR n).portWrites = s.portWrites := rfl

@[simp] theorem State.incR_cfg (s : State) (n : Nat) : (s.incR n).cfg = s.cfg := rfl

/-! ### `prologue` -/

@[simp] theorem State.prologue_main (s : State) (n : Nat) : (s.prologue n).main = s.main := rfl

@[simp] theorem State.prologue_shadow (s : State) (n : Nat) : (s.prologue n).shadow = s.shadow := rfl

@[simp] theorem State.prologue_ixh (s : State) (n : Nat) : (s.prologue n).ixh = s.ixh := rfl

@[simp] theorem State.prologue_ixl (s : State) (n : Nat) : (s.prologue n).ixl = s.ixl := rfl

@[simp] theorem State.prologue_iyh (s : State) (n : Nat) : (s.prologue n).iyh = s.iyh := rfl

@[simp] theorem State.prologue_iyl (s : State) (n : Nat) : (s.prologue n).iyl = s.iyl := rfl

@[simp] theorem State.prologue_sp (s : State) (n : Nat) : (s.prologue n).sp = s.sp := rfl

@[simp] theorem State.prologue_pc (s : State) (n : Nat) : (s.prologue n).pc = s.pc := rfl

@[simp] theorem State.prologue_i (s : State) (n : Nat) : (s.prologue n).i = s.i := rfl

@[simp] theorem State.prologue_t (s : State) (n : Nat) : (s.prologue n).t = s.t := rfl

@[simp] theorem State.prologue_iff (s : State) (n : Nat) : (s.prologue n).iff = s.iff := rfl

@[simp] theorem State.prologue_im (s : State) (n : Nat) : (s.prologue n).im = s.im := rfl

@[simp] theorem State.prologue_mem (s : State) (n : Nat) : (s.prologue n).mem = s.mem := rfl

@[simp] theorem State.prologue_readPort (s : State) (n : Nat) : (s.prologue n).readPort = s.readPort := rfl

@[simp] theorem State.prologue_portReads (s : State) (n : Nat) : (s.prologue n).portReads = s.portReads := rfl

@[simp] theorem State.prologue_portWrites (s : State) (n : Nat) : (s.prologue n).portWrites = s.portWrites := rfl

@[simp] theorem State.prologue_cfg (s : State) (n : Nat) : (s.prologue n).cfg = s.cfg := rfl

@[simp] theorem State.prologue_last (s : State) (n : Nat) : (s.prologue n).last = .other := rfl

@[simp] theorem State.prologue_r (s : State) (n : Nat) : (s.prologue n).r = (s.incR n).r := rfl

/-! ### `push16` -/

@[simp] theorem State.push16_main (s : State) (v : Word) : (s.push16 v).main = s.main := by simp [State.push16]

@[simp] theorem State.push16_shadow (s : State) (v : Word) : (s.push16 v).shadow = s.shadow := by simp [State.push16]

@[simp] theorem State.push16_ixh (s : State) (v : Word) : (s.push16 v).ixh = s.ixh := by simp [State.push16]

@[simp] theorem State.push16_ixl (s : State) (v : Word) : (s.push16 v).ixl = s.ixl := by simp [State.push16]

@[simp] theorem State.push16_iyh (s : State) (v : Word) : (s.push16 v).iyh = s.iyh := by simp [State.push16]

@[simp] theorem State.push16_iyl (s : State) (v : Word) : (s.push16 v).iyl = s.iyl := by simp [State.push16]

@[simp] theorem State.push16_pc (s : State) (v : Word) : (s.push16 v).pc = s.pc := by simp [State.push16]

@[simp] theorem State.push16_i (s : State) (v : Word) : (s.push16 v).i = s.i := by simp [State.push16]

@[simp] theorem State.push16_r (s : State) (v : Word) : (s.push16 v).r = s.r := by simp [State.push16]

@[simp] theorem State.push16_t (s : State) (v : Word) : (s.push16 v).t = s.t := by simp [State.push16]

@[simp] theorem State.push16_iff (s : State) (v : Word) : (s.push16 v).iff = s.iff := by simp [State.push16]

@[simp] theorem State.push16_im (s : State) (v : Word) : (s.push16 v).im = s.im := by simp [State.push16]

@[simp] theorem State.push16_last (s : State) (v : Word) : (s.push16 v).last = s.last := by simp [State.push16]

@[simp] theorem State.push16_readPort (s : State) (v : Word) : (s.push16 v).readPort = s.readPort := by simp [State.push16]

@[simp] theorem State.push16_portReads (s : State) (v : Word) :
    (s.push16 v).portReads = s.portReads := by simp [State.push16]

@[simp] theorem State.push16_portWrites (s : State) (v : Word) :
    (s.push16 v).portWrites = s.portWrites := by simp [State.push16]

@[simp] theorem State.push16_cfg (s : State) (v : Word) : (s.push16 v).cfg = s.cfg := by simp [State.push16]

@[simp] theorem State.push16_sp (s : State) (v : Word) : (s.push16 v).sp = s.sp - 2 := by simp [State.push16]

/-! ### `pop16` -/

@[simp] theorem State.pop16_main (s : State) : (s.pop16.2).main = s.main := rfl

@[simp] theorem State.pop16_shadow (s : State) : (s.pop16.2).shadow = s.shadow := rfl

@[simp] theorem State.pop16_ixh (s : State) : (s.pop16.2).ixh = s.ixh := rfl

@[simp] theorem State.pop16_ixl (s : State) : (s.pop16.2).ixl = s.ixl := rfl

@[simp] theorem State.pop16_iyh (s : State) : (s.pop16.2).iyh = s.iyh := rfl

@[simp] theorem State.pop16_iyl (s : State) : (s.pop16.2).iyl = s.iyl := rfl

@[simp] theorem State.pop16_pc (s : State) : (s.pop16.2).pc = s.pc := rfl

@[simp] theorem State.pop16_i (s : State) : (s.pop16.2).i = s.i := rfl

@[simp] theorem State.pop16_r (s : State) : (s.pop16.2).r = s.r := rfl

@[simp] theorem State.pop16_t (s : State) : (s.pop16.2).t = s.t := rfl

@[simp] theorem State.pop16_iff (s : State) : (s.pop16.2).iff = s.iff := rfl

@[simp] theorem State.pop16_im (s : State) : (s.pop16.2).im = s.im := rfl

@[simp] theorem State.pop16_last (s : State) : (s.pop16.2).last = s.last := rfl

@[simp] theorem State.pop16_mem (s : State) : (s.pop16.2).mem = s.mem := rfl

@[simp] theorem State.pop16_readPort (s : State) : (s.pop16.2).readPort = s.readPort := rfl

@[simp] theorem State.pop16_portReads (s : State) : (s.pop16.2).portReads = s.portReads := rfl

@[simp] theorem State.pop16_portWrites (s : State) : (s.pop16.2).portWrites = s.portWrites := rfl

@[simp] theorem State.pop16_cfg (s : State) : (s.pop16.2).cfg = s.cfg := rfl

@[simp] theorem State.pop16_sp (s : State) : s.pop16.2.sp = s.sp + 2 := rfl

/-! ### `portWrite` -/

@[simp] theorem State.portWrite_main (s : State) (p : Word) (v : Byte) : (s.portWrite p v).main = s.main := rfl

@[simp] theorem State.portWrite_shadow (s : State) (p : Word) (v : Byte) : (s.portWrite p v).shadow = s.shadow := rfl

@[simp] theorem State.portWrite_ixh (s : State) (p : Word) (v : Byte) : (s.portWrite p v).ixh = s.ixh := rfl

@[simp] theorem State.portWrite_ixl (s : State) (p : Word) (v : Byte) : (s.portWrite p v).ixl = s.ixl := rfl

@[simp] theorem State.portWrite_iyh (s : State) (p : Word) (v : Byte) : (s.portWrite p v).iyh = s.iyh := rfl

@[simp] theorem State.portWrite_iyl (s : State) (p : Word) (v : Byte) : (s.portWrite p v).iyl = s.iyl := rfl

@[simp] theorem State.portWrite_sp (s : State) (p : Word) (v : Byte) : (s.portWrite p v).sp = s.sp := rfl

@[simp] theorem State.portWrite_pc (s : State) (p : Word) (v : Byte) : (s.portWrite p v).pc = s.pc := rfl

@[simp] theorem State.portWrite_i (s : State) (p : Word) (v : Byte) : (s.portWrite p v).i = s.i := rfl

@[simp] theorem State.portWrite_r (s : State) (p : Word) (v : Byte) : (s.portWrite p v).r = s.r := rfl

@[simp] theorem State.portWrite_t (s : State) (p : Word) (v : Byte) : (s.portWrite p v).t = s.t := rfl

@[simp] theorem State.portWrite_iff (s : State) (p : Word) (v : Byte) : (s.portWrite p v).iff = s.iff := rfl

@[simp] theorem State.portWrite_im (s : State) (p : Word) (v : Byte) : (s.portWrite p v).im = s.im := rfl

@[simp] theorem State.portWrite_last (s : State) (p : Word) (v : Byte) : (s.portWrite p v).last = s.last := rfl

@[simp] theorem State.portWrite_mem (s : State) (p : Word) (v : Byte) : (s.portWrite p v).mem = s.mem := rfl

@[simp] theorem State.portWrite_readPort (s : State) (p : Word) (v : Byte) : (s.portWrite p v).readPort = s.readPort := rfl

@[simp] theorem State.portWrite_portReads (s : State) (p : Word) (v : Byte) :
    (s.portWrite p v).portReads = s.portReads := rfl

@[simp] theorem State.portWrite_cfg (s : State) (p : Word) (v : Byte) : (s.portWrite p v).cfg = s.cfg := rfl

@[simp] theorem State.portWrite_portWrites (s : State) (p : Word) (v : Byte) :
    (s.portWrite p v).portWrites = s.portWrites ++ [⟨p, v⟩] := rfl

/-! ### `portRead` -/

@[simp] theorem State.portRead_main (s : State) (p : Word) :
    ((s.portRead p).2).main = s.main := by unfold State.portRead; split <;> rfl

@[simp] theorem State.portRead_shadow (s : State) (p : Word) :
    ((s.portRead p).2).shadow = s.shadow := by unfold State.portRead; split <;> rfl

@[simp] theorem State.portRead_ixh (s : State) (p : Word) :
    ((s.portRead p).2).ixh = s.ixh := by unfold State.portRead; split <;> rfl

@[simp] theorem State.portRead_ixl (s : State) (p : Word) :
    ((s.portRead p).2).ixl = s.ixl := by unfold State.portRead; split <;> rfl

@[simp] theorem State.portRead_iyh (s : State) (p : Word) :
    ((s.portRead p).2).iyh = s.iyh := by unfold State.portRead; split <;> rfl

@[simp] theorem State.portRead_iyl (s : State) (p : Word) :
    ((s.portRead p).2).iyl = s.iyl := by unfold State.portRead; split <;> rfl

@[simp] theorem State.portRead_sp (s : State) (p : Word) :
    ((s.portRead p).2).sp = s.sp := by unfold State.portRead; split <;> rfl

@[simp] theorem State.portRead_pc (s : State) (p : Word) :
    ((s.portRead p).2).pc = s.pc := by unfold State.portRead; split <;> rfl

@[simp] theorem State.portRead_i (s : State) (p : Word) :
    ((s.portRead p).2).i = s.i := by unfold State.portRead; split <;> rfl

@[simp] theorem State.portRead_r (s : State) (p : Word) :
    ((s.portRead p).2).r = s.r := by unfold State.portRead; split <;> rfl

@[simp] theorem State.portRead_t (s : State) (p : Word) :
    ((s.portRead p).2).t = s.t := by unfold State.portRead; split <;> rfl

@[simp] theorem State.portRead_iff (s : State) (p : Word) :
    ((s.portRead p).2).iff = s.iff := by unfold State.portRead; split <;> rfl

@[simp] theorem State.portRead_im (s : State) (p : Word) :
    ((s.portRead p).2).im = s.im := by unfold State.portRead; split <;> rfl

@[simp] theorem State.portRead_last (s : State) (p : Word) :
    ((s.portRead p).2).last = s.last := by unfold State.portRead; split <;> rfl

@[simp] theorem State.portRead_mem (s : State) (p : Word) :
    ((s.portRead p).2).mem = s.mem := by unfold State.portRead; split <;> rfl

@[simp] theorem State.portRead_portWrites (s : State) (p : Word) :
    ((s.portRead p).2).portWrites = s.portWrites := by unfold State.portRead; split <;> rfl

@[simp] theorem State.portRead_cfg (s : State) (p : Word) :
    ((s.portRead p).2).cfg = s.cfg := by unfold State.portRead; split <;> rfl

/-! ### `setResHL` -/

@[simp] theorem State.setResHL_shadow (s : State) (x : Word × Byte) : (s.setResHL x).shadow = s.shadow := rfl

@[simp] theorem State.setResHL_ixh (s : State) (x : Word × Byte) : (s.setResHL x).ixh = s.ixh := rfl

@[simp] theorem State.setResHL_ixl (s : State) (x : Word × Byte) : (s.setResHL x).ixl = s.ixl := rfl

@[simp] theorem State.setResHL_iyh (s : State) (x : Word × Byte) : (s.setResHL x).iyh = s.iyh := rfl

@[simp] theorem State.setResHL_iyl (s : State) (x : Word × Byte) : (s.setResHL x).iyl = s.iyl := rfl

@[simp] theorem State.setResHL_sp (s : State) (x : Word × Byte) : (s.setResHL x).sp = s.sp := rfl

@[simp] theorem State.setResHL_pc (s : State) (x : Word × Byte) : (s.setResHL x).pc = s.pc := rfl

@[simp] theorem State.setResHL_i (s : State) (x : Word × Byte) : (s.setResHL x).i = s.i := rfl

@[simp] theorem State.setResHL_r (s : State) (x : Word × Byte) : (s.setResHL x).r = s.r := rfl

@[simp] theorem State.setResHL_t (s : State) (x : Word × Byte) : (s.setResHL x).t = s.t := rfl

@[simp] theorem State.setResHL_iff (s : State) (x : Word × Byte) : (s.setResHL x).iff = s.iff := rfl

@[simp] theorem State.setResHL_im (s : State) (x : Word × Byte) : (s.setResHL x).im = s.im := rfl

@[simp] theorem State.setResHL_last (s : State) (x : Word × Byte) : (s.setResHL x).last = s.last := rfl

@[simp] theorem State.setResHL_mem (s : State) (x : Word × Byte) : (s.setResHL x).mem = s.mem := rfl

@[simp] theorem State.setResHL_readPort (s : State) (x : Word × Byte) : (s.setResHL x).readPort = s.readPort := rfl

@[simp] theorem State.setResHL_portReads (s : State) (x : Word × Byte) : (s.setResHL x).portReads = s.portReads := rfl

@[simp] theorem State.setResHL_portWrites (s : State) (x : Word × Byte) : (s.setResHL x).portWrites = s.portWrites := rfl

@[simp] theorem State.setResHL_cfg (s : State) (x : Word × Byte) : (s.setResHL x).cfg = s.cfg := rfl

@[simp] theorem State.setResHL_main (s : State) (x : Word × Byte) :
    (s.setResHL x).main = { s.main.setHL x.1 with f := x.2 } := rfl

/-! ### `setResMem` -/

@[simp] theorem State.setResMem_shadow (s : State) (a : Word) (x : Byte × Byte) :
    (s.setResMem a x).shadow = s.shadow := by simp [State.setResMem]

@[simp] theorem State.setResMem_ixh (s : State) (a : Word) (x : Byte × Byte) :
    (s.setResMem a x).ixh = s.ixh := by simp [State.setResMem]

@[simp] theorem State.setResMem_ixl (s : State) (a : Word) (x : Byte × Byte) :
    (s.setResMem a x).ixl = s.ixl := by simp [State.setResMem]

@[simp] theorem State.setResMem_iyh (s : State) (a : Word) (x : Byte × Byte) :
    (s.setResMem a x).iyh = s.iyh := by simp [State.setResMem]

@[simp] theorem State.setResMem_iyl (s : State) (a : Word) (x : Byte × Byte) :
    (s.setResMem a x).iyl = s.iyl := by simp [State.setResMem]

@[simp] theorem State.setResMem_sp (s : State) (a : Word) (x : Byte × Byte) :
    (s.setResMem a x).sp = s.sp := by simp [State.setResMem]

@[simp] theorem State.setResMem_pc (s : State) (a : Word) (x : Byte × Byte) :
    (s.setResMem a x).pc = s.pc := by simp [State.setResMem]

@[simp] theorem State.setResMem_i (s : State) (a : Word) (x : Byte × Byte) :
    (s.setResMem a x).i = s.i := by simp [State.setResMem]

@[simp] theorem State.setResMem_r (s : State) (a : Word) (x : Byte × Byte) :
    (s.setResMem a x).r = s.r := by simp [State.setResMem]

@[simp] theorem State.setResMem_t (s : State) (a : Word) (x : Byte × Byte) :
    (s.setResMem a x).t = s.t := by simp [State.setResMem]

@[simp] theorem State.setResMem_iff (s : State) (a : Word) (x : Byte × Byte) :
    (s.setResMem a x).iff = s.iff := by simp [State.setResMem]

@[simp] theorem State.setResMem_im (s : State) (a : Word) (x : Byte × Byte) :
    (s.setResMem a x).im = s.im := by simp [State.setResMem]

@[simp] theorem State.setResMem_last (s : State) (a : Word) (x : Byte × Byte) :
    (s.setResMem a x).last = s.last := by simp [State.setResMem]

@[simp] theorem State.setResMem_readPort (s : State) (a : Word) (x : Byte × Byte) :
    (s.setResMem a x).readPort = s.readPort := by simp [State.setResMem]

@[simp] theorem State.setResMem_portReads (s : State) (a : Word) (x : Byte × Byte) :
    (s.setResMem a x).portReads = s.portReads := by simp [State.setResMem]

@[simp] theorem State.setResMem_portWrites (s : State) (a : Word) (x : Byte × Byte) :
    (s.setResMem a x).portWrites = s.portWrites := by simp [State.setResMem]

@[simp] theorem State.setResMem_cfg (s : State) (a : Word) (x : Byte × Byte) :
    (s.setResMem a x).cfg = s.cfg := by simp [State.setResMem]

@[simp] theorem State.setResMem_main (s : State) (a : Word) (x : Byte × Byte) :
    (s.setResMem a x).main = { s.main with f := x.2 } := by simp [State.setResMem]

@[simp] theorem State.setResMem_mem (s : State) (a : Word) (x : Byte × Byte) :
    (s.setResMem a x).mem = (s.writeByte a x.1).mem := rfl

end Sys2Proof.Machine
end

