-- ==== Sys2Proof/Laws/Memory.lean ====
section
/-! SUPPORT. The laws of memory: what a write leaves to read, that every memory operation keeps the canonical form, and that
canonical memories that read alike are equal. -/

namespace Sys2Proof.Machine

@[simp] theorem Memory.get_nil (a : Nat) : Memory.get [] a = Memory.fill := rfl

theorem Memory.get_cons (a : Nat) (v : Byte) (m : Memory) (b : Nat) (hm : b = a → Memory.get m b = Memory.fill) :
    Memory.get (Memory.cons a v m) b = if b = a then v else Memory.get m b := by
  unfold Memory.cons
  by_cases hv : v = Memory.fill
  · by_cases hb : b = a
    · subst hb
      simp [hv, hm rfl]
    · simp [hv, hb]
  · by_cases hb : b = a
    · simp [hv, hb, Memory.get]
    · simp [hv, hb, Memory.get, Ne.symm hb]

/-- An address below the listed ones reads as the fill byte. -/
theorem Memory.get_below {low : Nat} {m : Memory} (h : Memory.wfFrom low m = true) {a : Nat} (ha : a < low) :
    Memory.get m a = Memory.fill := by
  induction m generalizing low with
  | nil => rfl
  | cons c rest ih =>
    obtain ⟨k, v⟩ := c
    simp only [Memory.wfFrom, Bool.and_eq_true, decide_eq_true_eq] at h
    have hk : k ≠ a := by omega
    simp only [Memory.get, if_neg hk]
    exact ih h.2 (by omega)

theorem Memory.wfFrom_mono {low low' : Nat} {m : Memory} (h : Memory.wfFrom low m = true) (hl : low' ≤ low) :
    Memory.wfFrom low' m = true := by
  cases m with
  | nil => rfl
  | cons c rest =>
    obtain ⟨k, v⟩ := c
    simp only [Memory.wfFrom, Bool.and_eq_true, decide_eq_true_eq] at h ⊢
    exact ⟨⟨⟨by omega, h.1.1.2⟩, h.1.2⟩, h.2⟩

theorem Memory.wfFrom_cons {low a : Nat} {v : Byte} {m : Memory} (hl : low ≤ a) (ha : a < 65536)
    (h : Memory.wfFrom (a + 1) m = true) : Memory.wfFrom low (Memory.cons a v m) = true := by
  unfold Memory.cons
  split
  · exact Memory.wfFrom_mono h (by omega)
  · rename_i hv
    simp [Memory.wfFrom, hl, ha, hv, h]

/-- What a write leaves to read (rules R52 and R53). -/
theorem Memory.get_set_from {low : Nat} {m : Memory} (h : Memory.wfFrom low m = true) (a : Nat) (v : Byte) (b : Nat) :
    Memory.get (Memory.set m a v) b = if b = a then v else Memory.get m b := by
  induction m generalizing low with
  | nil => exact Memory.get_cons a v [] b (fun _ => rfl)
  | cons c rest ih =>
    obtain ⟨k, w⟩ := c
    have hwf := h
    simp only [Memory.wfFrom, Bool.and_eq_true, decide_eq_true_eq] at h
    unfold Memory.set
    split
    · rename_i hlt
      apply Memory.get_cons
      intro hb
      have hk : k ≠ b := by omega
      simp only [Memory.get, if_neg hk]
      exact Memory.get_below h.2 (by omega)
    · split
      · rename_i _ heq
        rw [Memory.get_cons a v rest b (fun hb => Memory.get_below h.2 (by omega))]
        by_cases hb : b = a
        · simp [hb]
        · have hk : k ≠ b := by omega
          simp [hb, Memory.get, hk]
      · rename_i _ hne
        simp only [Memory.get]
        by_cases hkb : k = b
        · have hb : b ≠ a := by omega
          simp [hkb, hb]
        · simp [hkb, ih h.2]

theorem Memory.get_set {m : Memory} (h : m.wf = true) (a : Nat) (v : Byte) (b : Nat) :
    Memory.get (Memory.set m a v) b = if b = a then v else Memory.get m b :=
  Memory.get_set_from h a v b

theorem Memory.wfFrom_set {low : Nat} {m : Memory} (h : Memory.wfFrom low m = true) {a : Nat} (hl : low ≤ a)
    (ha : a < 65536) (v : Byte) : Memory.wfFrom low (Memory.set m a v) = true := by
  induction m generalizing low with
  | nil => exact Memory.wfFrom_cons hl ha rfl
  | cons c rest ih =>
    obtain ⟨k, w⟩ := c
    have hwf := h
    simp only [Memory.wfFrom, Bool.and_eq_true, decide_eq_true_eq] at h
    unfold Memory.set
    split
    · rename_i hlt
      refine Memory.wfFrom_cons hl ha ?_
      simp only [Memory.wfFrom, Bool.and_eq_true, decide_eq_true_eq]
      exact ⟨⟨⟨by omega, h.1.1.2⟩, h.1.2⟩, h.2⟩
    · split
      · rename_i _ heq
        refine Memory.wfFrom_cons hl ha ?_
        exact heq ▸ h.2
      · simp only [Memory.wfFrom, Bool.and_eq_true, decide_eq_true_eq]
        exact ⟨h.1, ih h.2 (by omega)⟩

/-- Every write keeps the canonical form. -/
theorem Memory.wf_set {m : Memory} (h : m.wf = true) {a : Nat} (ha : a < 65536) (v : Byte) :
    (Memory.set m a v).wf = true :=
  Memory.wfFrom_set h (Nat.zero_le a) ha v

theorem Memory.ext_from {low : Nat} {m n : Memory} (hm : Memory.wfFrom low m = true) (hn : Memory.wfFrom low n = true)
    (h : ∀ a, Memory.get m a = Memory.get n a) : m = n := by
  induction m generalizing low n with
  | nil =>
    cases n with
    | nil => rfl
    | cons c rest =>
      obtain ⟨k, v⟩ := c
      simp only [Memory.wfFrom, Bool.and_eq_true, bne_iff_ne] at hn
      have := h k
      simp [Memory.get] at this
      exact absurd this.symm hn.1.2
  | cons c rest ih =>
    obtain ⟨k, v⟩ := c
    cases n with
    | nil =>
      simp only [Memory.wfFrom, Bool.and_eq_true, bne_iff_ne] at hm
      have := h k
      simp [Memory.get] at this
      exact absurd this hm.1.2
    | cons c' rest' =>
      obtain ⟨k', v'⟩ := c'
      have hm' := hm
      have hn' := hn
      simp only [Memory.wfFrom, Bool.and_eq_true, decide_eq_true_eq, bne_iff_ne] at hm hn
      have hkk : k = k' := by
        rcases Nat.lt_trichotomy k k' with hlt | heq | hgt
        · have := h k
          have hb : Memory.get ((k', v') :: rest') k = Memory.fill := by
            have hne : k' ≠ k := by omega
            simp only [Memory.get, if_neg hne]
            exact Memory.get_below hn.2 (by omega)
          rw [hb] at this
          simp [Memory.get] at this
          exact absurd this hm.1.2
        · exact heq
        · have := h k'
          have hb : Memory.get ((k, v) :: rest) k' = Memory.fill := by
            have hne : k ≠ k' := by omega
            simp only [Memory.get, if_neg hne]
            exact Memory.get_below hm.2 (by omega)
          rw [hb] at this
          simp [Memory.get] at this
          exact absurd this.symm hn.1.2
      subst hkk
      have hvv : v = v' := by
        have := h k
        simpa [Memory.get] using this
      subst hvv
      have : rest = rest' := by
        refine ih (low := k + 1) hm.2 hn.2 (fun a => ?_)
        by_cases hka : k = a
        · subst hka
          rw [Memory.get_below hm.2 (by omega), Memory.get_below hn.2 (by omega)]
        · have := h a
          simpa [Memory.get, hka] using this
      rw [this]

/-- Canonical memories that read alike at every address are equal. -/
theorem Memory.ext {m n : Memory} (hm : m.wf = true) (hn : n.wf = true) (h : ∀ a, Memory.get m a = Memory.get n a) :
    m = n :=
  Memory.ext_from hm hn h

/-- A canonical memory names no address at or past 65536. -/
theorem Memory.get_high_from {low : Nat} {m : Memory} (h : Memory.wfFrom low m = true) {a : Nat} (ha : 65536 ≤ a) :
    Memory.get m a = Memory.fill := by
  induction m generalizing low with
  | nil => rfl
  | cons c rest ih =>
    obtain ⟨k, v⟩ := c
    simp only [Memory.wfFrom, Bool.and_eq_true, decide_eq_true_eq] at h
    have hk : k ≠ a := by omega
    simp only [Memory.get, if_neg hk]
    exact ih h.2

theorem Memory.get_high {m : Memory} (h : m.wf = true) {a : Nat} (ha : 65536 ≤ a) : Memory.get m a = Memory.fill :=
  Memory.get_high_from h ha

/-- Canonical memories that read alike at the 65536 addresses are equal. -/
theorem Memory.ext_word {m n : Memory} (hm : m.wf = true) (hn : n.wf = true)
    (h : ∀ a : Word, Memory.get m a.toNat = Memory.get n a.toNat) : m = n := by
  refine Memory.ext hm hn (fun a => ?_)
  by_cases ha : a < 65536
  · have := h (BitVec.ofNat 16 a)
    simpa [Nat.mod_eq_of_lt ha] using this
  · rw [Memory.get_high hm (by omega), Memory.get_high hn (by omega)]

/-! ## The memory operations of the machine -/

@[simp] theorem State.reset_mem_wf : State.reset.mem.wf = true := rfl

theorem State.writeByte_mem_wf {s : State} (h : s.mem.wf = true) (a : Word) (v : Byte) :
    (s.writeByte a v).mem.wf = true := by
  unfold State.writeByte
  split
  · exact h
  · exact Memory.wf_set h a.isLt v

theorem State.writeWord_mem_wf {s : State} (h : s.mem.wf = true) (a v : Word) : (s.writeWord a v).mem.wf = true :=
  State.writeByte_mem_wf (State.writeByte_mem_wf h a _) _ _

theorem State.pokeByte_mem_wf {s : State} (h : s.mem.wf = true) (a : Word) (v : Byte) :
    (s.pokeByte a v).mem.wf = true :=
  Memory.wf_set h a.isLt v

/-- What a byte write leaves to read, ROM check included (rules R51 to R53). -/
theorem State.readByte_writeByte {s : State} (h : s.mem.wf = true) (a b : Word) (v : Byte) :
    (s.writeByte a v).readByte b = if b = a ∧ ¬ a.toNat ≤ 0x3FFF then v else s.readByte b := by
  unfold State.writeByte State.readByte isRom
  by_cases hr : a.toNat ≤ 0x3FFF
  · simp [hr]
  · simp only [hr, decide_false, Bool.false_eq_true, if_false, not_false_eq_true, and_true]
    rw [Memory.get_set h]
    by_cases hb : b = a
    · simp [hb]
    · have hn : b.toNat ≠ a.toNat := fun hc => hb (BitVec.eq_of_toNat_eq hc)
      simp [hb, hn]

/-- What the host's load of a byte leaves to read (rules R390 and R391). -/
theorem State.readByte_pokeByte {s : State} (h : s.mem.wf = true) (a b : Word) (v : Byte) :
    (s.pokeByte a v).readByte b = if b = a then v else s.readByte b := by
  unfold State.pokeByte State.readByte
  rw [Memory.get_set h]
  by_cases hb : b = a
  · simp [hb]
  · have hn : b.toNat ≠ a.toNat := fun hc => hb (BitVec.eq_of_toNat_eq hc)
    simp [hb, hn]

/-- No write reaches ROM (rule R51). -/
theorem State.writeByte_rom {s : State} (h : s.mem.wf = true) (a : Word) (v : Byte) {b : Word} (hb : b.toNat ≤ 0x3FFF) :
    (s.writeByte a v).readByte b = s.readByte b := by
  rw [State.readByte_writeByte h]
  split
  · rename_i hc
    exact absurd (hc.1 ▸ hb) hc.2
  · rfl

theorem State.writeWord_rom {s : State} (h : s.mem.wf = true) (a v : Word) {b : Word} (hb : b.toNat ≤ 0x3FFF) :
    (s.writeWord a v).readByte b = s.readByte b := by
  rw [State.writeWord, State.writeByte_rom (State.writeByte_mem_wf h _ _) _ _ hb, State.writeByte_rom h _ _ hb]

end Sys2Proof.Machine
end

