-- ==== Sys2Proof/Laws/Ops.lean ====
section
/-! SUPPORT. For each shared operation of Machine/Ops.lean and Machine/Operands.lean, what it does, said once in the terms of
Safety.lean: the R counter, the stores, the words of memory, the conditions, the ports, the branch targets, taking the
interrupt. -/

namespace Sys2Proof.Machine

/-! ## Numbers and halves (rules R10, R22) -/

theorem pair_toNat (h l : Byte) : (pair h l).toNat = h.toNat * 256 + l.toNat := by
  have hl := l.isLt
  rw [pair, BitVec.toNat_append, Nat.shiftLeft_eq, ← Nat.shiftLeft_eq, ← Nat.shiftLeft_add_eq_or_of_lt hl,
    Nat.shiftLeft_eq]

theorem hiByte_toNat (w : Word) : (hiByte w).toNat = w.toNat / 256 := by
  have hw := w.isLt
  rw [hiByte, BitVec.extractLsb'_toNat, Nat.shiftRight_eq_div_pow]
  omega

theorem loByte_toNat (w : Word) : (loByte w).toNat = w.toNat % 256 := by
  rw [loByte, BitVec.extractLsb'_toNat, Nat.shiftRight_zero]

@[simp] theorem pair_hi_lo (w : Word) : pair (hiByte w) (loByte w) = w := by
  apply BitVec.eq_of_toNat_eq
  rw [pair_toNat, hiByte_toNat, loByte_toNat]
  omega

@[simp] theorem hiByte_pair (h l : Byte) : hiByte (pair h l) = h := by
  apply BitVec.eq_of_toNat_eq
  have hl := l.isLt
  rw [hiByte_toNat, pair_toNat]
  omega

@[simp] theorem loByte_pair (h l : Byte) : loByte (pair h l) = l := by
  apply BitVec.eq_of_toNat_eq
  have hl := l.isLt
  rw [loByte_toNat, pair_toNat]
  omega

theorem loByte_eq (w : Word) : loByte w = w.setWidth 8 := by
  apply BitVec.eq_of_toNat_eq
  rw [loByte_toNat, BitVec.toNat_setWidth]

theorem hiByte_eq (w : Word) : hiByte w = (w >>> 8).setWidth 8 := by
  apply BitVec.eq_of_toNat_eq
  have hw := w.isLt
  rw [hiByte_toNat, BitVec.toNat_setWidth, BitVec.toNat_ushiftRight, Nat.shiftRight_eq_div_pow]
  omega

/-! ## The refresh counter (rule R84) -/

theorem incR_counted (s : State) (n : Nat) : CountedR s (s.incR n) n := by
  constructor
  · simp [State.incR]
  · have h : ((s.incR n).r &&& 0x7F) = (s.r + BitVec.ofNat 8 n) &&& 0x7F := by
      apply BitVec.eq_of_getLsbD_eq
      intro i hi
      simp only [State.incR, BitVec.getLsbD_and, BitVec.getLsbD_or]
      have hm : (0x80 : Byte).getLsbD i = true → (0x7F : Byte).getLsbD i = false := by
        revert i; decide
      cases h1 : (0x80 : Byte).getLsbD i <;> cases h2 : (0x7F : Byte).getLsbD i <;> simp_all
    have h2 := congrArg BitVec.toNat h
    rw [BitVec.toNat_and, BitVec.toNat_and, show (0x7F : Byte).toNat = 2 ^ 7 - 1 from rfl, Nat.and_two_pow_sub_one_eq_mod,
      Nat.and_two_pow_sub_one_eq_mod, BitVec.toNat_add, BitVec.toNat_ofNat] at h2
    rw [show (128 : Nat) = 2 ^ 7 from rfl, h2]
    omega

theorem prologue_counted (s : State) (n : Nat) : CountedR s (s.prologue n) n :=
  ⟨(incR_counted s n).bit7, (incR_counted s n).low7⟩

/-! ## Memory (rules R51 to R58) -/

theorem readByte_congr {s t : State} (h : t.mem = s.mem) (a : Word) : t.readByte a = s.readByte a := by
  rw [State.readByte, State.readByte, h]

/-- A store, however the rest of the state then changes. -/
theorem storedByte_of_mem {s t : State} (hs : s.mem.wf = true) {a : Word} {v : Byte} (h : t.mem = (s.writeByte a v).mem) :
    StoredByte s t a v := by
  have hr := fun b => (readByte_congr h b).trans (State.readByte_writeByte hs a b v)
  constructor
  · rw [hr]
    by_cases hc : a.toNat ≤ 0x3FFF <;> simp [hc]
  · intro b hb
    rw [hr]
    simp [hb]

/-- Two single stores at `a` and `a + 1` are a store of a word (rule R54). -/
theorem storedWord_of_mem {s t : State} (hs : s.mem.wf = true) {a v : Word} (h : t.mem = (s.writeWord a v).mem) :
    StoredWord s t a v := by
  have hw := State.writeByte_mem_wf hs a (loByte v)
  have hne : a ≠ a + 1 := by
    intro hc
    have h1 : (1 : Word) = 0 := by
      have := congrArg (fun x => x - a) hc
      simp at this
    exact absurd h1 (by decide)
  have hr : ∀ b, t.readByte b = if b = a + 1 ∧ ¬ (a + 1).toNat ≤ 0x3FFF then hiByte v
      else if b = a ∧ ¬ a.toNat ≤ 0x3FFF then loByte v else s.readByte b := fun b => by
    rw [readByte_congr h b, State.writeWord, State.readByte_writeByte hw, State.readByte_writeByte hs]
  constructor
  · rw [hr, ← loByte_eq, if_neg (fun x => hne x.1)]
    by_cases hc : a.toNat ≤ 0x3FFF <;> simp [hc]
  · rw [hr, ← hiByte_eq]
    by_cases hc : (a + 1).toNat ≤ 0x3FFF
    · rw [if_pos hc, if_neg (fun x => x.2 hc), if_neg (fun x => hne x.1.symm)]
    · rw [if_neg hc, if_pos ⟨rfl, hc⟩]
  · intro b h1 h2
    rw [hr, if_neg (fun x => h2 x.1), if_neg (fun x => h1 x.1)]

theorem wordAt_readWord (s : State) (a : Word) : WordAt s a (s.readWord a) := pair_toNat _ _

/-! A store is an update of memory alone, and it depends on memory alone. -/

theorem writeByte_mem (s : State) (a : Word) (v : Byte) :
    (s.writeByte a v).mem = if isRom a then s.mem else s.mem.set a.toNat v := by
  unfold State.writeByte
  split <;> rfl

theorem writeByte_eq (s : State) (a : Word) (v : Byte) : s.writeByte a v = { s with mem := (s.writeByte a v).mem } := by
  unfold State.writeByte
  split <;> rfl

theorem writeByte_mem_congr {s t : State} (h : t.mem = s.mem) (a : Word) (v : Byte) :
    (t.writeByte a v).mem = (s.writeByte a v).mem := by
  rw [writeByte_mem, writeByte_mem, h]

theorem writeWord_mem_congr {s t : State} (h : t.mem = s.mem) (a v : Word) :
    (t.writeWord a v).mem = (s.writeWord a v).mem :=
  writeByte_mem_congr (writeByte_mem_congr h a (loByte v)) (a + 1) (hiByte v)

theorem writeWord_eq (s : State) (a v : Word) : s.writeWord a v = { s with mem := (s.writeWord a v).mem } := by
  unfold State.writeWord
  rw [writeByte_eq (s.writeByte a (loByte v)), writeByte_eq s]

theorem push16_mem (s : State) (v : Word) : (s.push16 v).mem = (s.writeWord (s.sp - 2) v).mem :=
  writeWord_mem_congr (s := s) (t := s.setSP (s.sp - 2)) rfl _ _

theorem push16_eq (s : State) (v : Word) :
    s.push16 v = { s with sp := s.sp - 2, mem := (s.writeWord (s.sp - 2) v).mem } := by
  rw [← push16_mem]
  unfold State.push16
  rw [writeWord_eq]
  rfl

/-! ## Conditions and branch targets (rules R93, R94, R302) -/

theorem cond_eq (s : State) (cc : Cond) : s.cond cc = condTrue s.main.f cc := by
  cases cc <;> simp [State.cond, condTrue, flagZ, flagC, flagPV, flagS]

theorem sext8_toNat (e : Byte) : ((sext8 e).toNat : Int) = e.toInt % 65536 := by
  have he := e.isLt
  rw [sext8, BitVec.signExtend, BitVec.toNat_ofInt, toInt_byte]
  split <;> omega

theorem relTarget_spec (s : State) (e : Byte) : IsRelTarget s.pc e (s.relTarget e) := by
  have h := sext8_toNat e
  unfold IsRelTarget State.relTarget
  have h2 : (2 : Word).toNat = 2 := rfl
  rw [BitVec.toNat_add, BitVec.toNat_add, h2]
  omega

theorem ea_spec (s : State) (x : XY) (d : Byte) : ((s.ea x d).toNat : Int) = ((s.xy x).toNat + d.toInt) % 65536 := by
  have h := sext8_toNat d
  unfold State.ea
  rw [BitVec.toNat_add]
  omega

/-! ## The ports (rules R64, R65) -/

theorem portRead_spec {s t : State} (p : Word) (h1 : t.readPort = (s.portRead p).2.readPort)
    (h2 : t.portReads = (s.portRead p).2.portReads) : PortGave s t p (s.portRead p).1 := by
  unfold PortGave
  unfold State.portRead at h1 h2 ⊢
  split at h1
  · rename_i h
    exact .inl ⟨h, by simp_all, by simp_all, by simp_all⟩
  · rename_i h
    refine .inr (.inr ⟨h, ?_, ?_, ?_⟩) <;> simp_all
  · rename_i v rest h
    refine .inr (.inl ⟨rest, ?_, ?_, ?_⟩) <;> simp_all

/-! ## The maskable interrupt (rules R351 to R357) -/

theorem accepts_iff (s : State) : s.accepts = true ↔ MayAccept s := by
  unfold State.accepts MayAccept intLine Last.defers
  cases s.last <;> simp

/-- The state after acceptance, in one record. -/
theorem takeInterrupt_eq (s : State) :
    s.takeInterrupt =
      { s with
        r := (s.incR 1).r, sp := s.sp - 2, mem := (s.writeWord (s.sp - 2) s.returnAddr).mem, iff := false,
        last := .other, t := s.t + (if s.im = .im2 then 19 else 13),
        pc := if s.im = .im2 then (s.push16 s.returnAddr).readWord (pair s.i s.cfg.floatByte) else 0x0038 } := by
  have hm : (s.push16 s.returnAddr).mem = (s.writeWord (s.sp - 2) s.returnAddr).mem := push16_mem _ _
  have hw : ((s.incR 1).writeWord (s.sp - 2) s.returnAddr).mem = (s.writeWord (s.sp - 2) s.returnAddr).mem :=
    writeWord_mem_congr (s := s) (t := s.incR 1) rfl _ _
  have he : (s.incR 1).push16 s.returnAddr =
      { s with r := (s.incR 1).r, sp := s.sp - 2, mem := (s.writeWord (s.sp - 2) s.returnAddr).mem } := by
    rw [push16_eq, ← hw]
    rfl
  unfold State.takeInterrupt
  rw [he]
  cases h : s.im
  · rfl
  · rfl
  · simp only [State.readWord, State.readByte, if_true, hm]

theorem takeInterrupt_spec {s : State} (hs : s.mem.wf = true) : Accepted s s.takeInterrupt := by
  have he := takeInterrupt_eq s
  have hm : s.takeInterrupt.mem = (s.writeWord (s.sp - 2) s.returnAddr).mem := by rw [he]
  have hv : BitVec.ofNat 16 (s.i.toNat * 256 + s.cfg.floatByte.toNat) = pair s.i s.cfg.floatByte := by
    apply BitVec.eq_of_toNat_eq
    have h1 := s.i.isLt
    have h2 := s.cfg.floatByte.isLt
    rw [pair_toNat, BitVec.toNat_ofNat]
    omega
  refine ⟨?_, by rw [he], storedWord_of_mem hs hm, by rw [he], by rw [he], ?_, ?_, by rw [he]; rfl⟩
  · have h := incR_counted s 1
    rw [he]
    exact ⟨h.bit7, h.low7⟩
  · intro hi
    rw [he]
    simp only [if_neg hi, and_self]
  · intro hi
    have hp : s.takeInterrupt.pc = s.takeInterrupt.readWord (pair s.i s.cfg.floatByte) := by
      have hpc : s.takeInterrupt.pc = (s.push16 s.returnAddr).readWord (pair s.i s.cfg.floatByte) := by
        rw [he]
        simp only [if_pos hi]
      rw [hpc, State.readWord, State.readWord, readByte_congr (hm.trans (push16_mem _ _).symm),
        readByte_congr (hm.trans (push16_mem _ _).symm)]
    refine ⟨?_, by rw [he]; simp only [if_pos hi]⟩
    rw [hv, hp]
    exact wordAt_readWord _ _

theorem acceptanceCheck_accepts {s : State} (hs : s.mem.wf = true) (h : MayAccept s) : Accepted s s.acceptanceCheck := by
  rw [State.acceptanceCheck, if_pos ((accepts_iff s).mpr h)]
  exact takeInterrupt_spec hs

theorem acceptanceCheck_declines {s : State} (h : ¬ MayAccept s) : s.acceptanceCheck = s := by
  rw [State.acceptanceCheck, if_neg (fun hc => h ((accepts_iff s).mp hc))]

/-! ## How an instruction ends (rules R83 to R85, R275) -/

theorem finish_next (s : State) (a : Word) (ts : Nat) : s.finish a ts = .next { s with t := s.t + ts, pc := a } := rfl

theorem endSeq_next (s : State) (len ts : Nat) :
    s.endSeq len ts = .next { s with t := s.t + ts, pc := s.pc + BitVec.ofNat 16 len } := rfl

theorem repeatOrEnd_next (s : State) (again : Bool) :
    s.repeatOrEnd again =
      .next { s with t := s.t + (if again then 21 else 16), pc := if again then s.pc else s.pc + 2 } := by
  unfold State.repeatOrEnd
  cases again <;> rfl

end Sys2Proof.Machine
end

