-- ==== Sys2Proof/Laws/Frames.lean ====
section
/-! SUPPORT. The shapes the meanings have in common (prologue, one update, end), each with what it leaves: the bookkeeping of
R83 to R86, the update, and nothing else. A proof about an instruction of that shape cites its lemma. -/

namespace Sys2Proof.Machine

/-- The bookkeeping from the four fields it is about. -/
theorem bookkept_of {s t : State} {n ts : Nat} {a : Word} (h1 : t.pc = a) (h2 : t.t = s.t + ts)
    (h3 : t.r = (s.incR n).r) (h4 : t.last = .other) : Bookkept s t n ts a := by
  refine ⟨h1, h2, ⟨?_, ?_⟩, h4⟩
  · rw [h3]; exact (incR_counted _ _).bit7
  · rw [h3]; exact (incR_counted _ _).low7

/-! ## Reads after the prologue are reads before it -/

theorem half_prologue (s : State) (n : Nat) (x : XY) (h : Half) : (s.prologue n).half x h = s.half x h := by
  cases x <;> cases h <;> rfl

theorem xy_prologue (s : State) (n : Nat) (x : XY) : (s.prologue n).xy x = s.xy x := by cases x <;> rfl

theorem ea_prologue (s : State) (n : Nat) (x : XY) (d : Byte) : (s.prologue n).ea x d = s.ea x d := by cases x <;> rfl

theorem rp_prologue (s : State) (n : Nat) (p : RegPair) : (s.prologue n).rp p = s.rp p := by cases p <;> rfl

theorem rp2_prologue (s : State) (n : Nat) (p : StackPair) : (s.prologue n).rp2 p = s.rp2 p := by cases p <;> rfl

theorem pp_prologue (s : State) (n : Nat) (x : XY) (p : IdxPair) : (s.prologue n).pp x p = s.pp x p := by
  cases p <;> cases x <;> rfl

theorem cond_prologue (s : State) (n : Nat) (cc : Cond) : (s.prologue n).cond cc = s.cond cc := by cases cc <;> rfl

theorem portRead_prologue (s : State) (n : Nat) (p : Word) : ((s.prologue n).portRead p).1 = (s.portRead p).1 := by
  unfold State.portRead
  have h : (s.prologue n).readPort = s.readPort := rfl
  rw [h]
  split <;> rfl

/-! ## One register, pair, half or index register written -/

theorem setReg_end (s : State) (n len ts : Nat) (r : Reg8) (v : Byte) :
    ∃ t, ((s.prologue n).setReg r v).endSeq len ts = .next t ∧ Bookkept s t n ts (s.pc + BitVec.ofNat 16 len) ∧
      LoadedReg s t r v :=
  ⟨_, rfl, bookkept_of rfl rfl rfl rfl, RegSet.get_set_same _ _ _, fun _ hk => RegSet.get_set_other _ _ hk,
    RegSet.set_f _ _ _, rfl⟩

theorem setHalf_end (s : State) (n len ts : Nat) (x : XY) (h : Half) (v : Byte) :
    ∃ t, ((s.prologue n).setHalf x h v).endSeq len ts = .next t ∧ Bookkept s t n ts (s.pc + BitVec.ofNat 16 len) ∧
      LoadedHalf s t x h v := by
  cases x <;> cases h <;> refine ⟨_, rfl, bookkept_of rfl rfl rfl rfl, rfl, ?_, rfl⟩ <;> intro y k hk <;> cases y <;>
    cases k <;> first | rfl | simp at hk

theorem setXY_end (s : State) (n len ts : Nat) (x : XY) (v : Word) :
    ∃ t, ((s.prologue n).setXY x v).endSeq len ts = .next t ∧ Bookkept s t n ts (s.pc + BitVec.ofNat 16 len) ∧
      LoadedXY s t x v := by
  cases x <;> refine ⟨_, rfl, bookkept_of rfl rfl rfl rfl, pair_hi_lo v, ?_, rfl⟩ <;> intro y hy <;> cases y <;>
    first | rfl | exact absurd rfl hy

theorem setRp_end (s : State) (n len ts : Nat) (p : RegPair) (v : Word) :
    ∃ t, ((s.prologue n).setRp p v).endSeq len ts = .next t ∧ Bookkept s t n ts (s.pc + BitVec.ofNat 16 len) ∧
      LoadedPair s t p v := by
  cases p <;> refine ⟨_, rfl, bookkept_of rfl rfl rfl rfl, ?_, ?_, rfl, rfl, rfl⟩ <;>
    first
    | exact pair_hi_lo v
    | rfl
    | (intro q hq; cases q <;> first | rfl | exact absurd rfl hq)

/-! ## One byte or word stored -/

theorem writeByte_end {s : State} (hs : s.mem.wf = true) (n len ts : Nat) (a : Word) (v : Byte) :
    ∃ t, ((s.prologue n).writeByte a v).endSeq len ts = .next t ∧ Bookkept s t n ts (s.pc + BitVec.ofNat 16 len) ∧
      OnlyStoredByte s t a v := by
  rw [writeByte_eq, writeByte_mem_congr (s := s) (t := s.prologue n) rfl a v]
  exact ⟨_, rfl, bookkept_of rfl rfl rfl rfl, storedByte_of_mem hs rfl, rfl⟩

theorem writeWord_end {s : State} (hs : s.mem.wf = true) (n len ts : Nat) (a v : Word) :
    ∃ t, ((s.prologue n).writeWord a v).endSeq len ts = .next t ∧ Bookkept s t n ts (s.pc + BitVec.ofNat 16 len) ∧
      OnlyStoredWord s t a v := by
  rw [writeWord_eq, writeWord_mem_congr (s := s) (t := s.prologue n) rfl a v]
  exact ⟨_, rfl, bookkept_of rfl rfl rfl rfl, storedWord_of_mem hs rfl, rfl⟩

theorem push16_prologue_eq (s : State) (n : Nat) (v : Word) :
    (s.prologue n).push16 v = { s.prologue n with sp := s.sp - 2, mem := (s.writeWord (s.sp - 2) v).mem } := by
  rw [push16_eq, ← writeWord_mem_congr (s := s) (t := s.prologue n) rfl (s.sp - 2) v]
  rfl

theorem push16_finish {s : State} (hs : s.mem.wf = true) (n ts : Nat) (a v : Word) :
    ∃ t, ((s.prologue n).push16 v).finish a ts = .next t ∧ Bookkept s t n ts a ∧ Pushed s t v := by
  rw [push16_prologue_eq]
  exact ⟨_, rfl, bookkept_of rfl rfl rfl rfl, rfl, storedWord_of_mem hs rfl, rfl⟩

theorem push16_end {s : State} (hs : s.mem.wf = true) (n len ts : Nat) (v : Word) :
    ∃ t, ((s.prologue n).push16 v).endSeq len ts = .next t ∧ Bookkept s t n ts (s.pc + BitVec.ofNat 16 len) ∧
      Pushed s t v := by
  rw [push16_prologue_eq]
  exact ⟨_, rfl, bookkept_of rfl rfl rfl rfl, rfl, storedWord_of_mem hs rfl, rfl⟩

/-! ## A result and F -/

theorem setResA_end (s : State) (n len ts : Nat) (x : Byte × Byte) :
    ∃ t, ((s.prologue n).setResA x).endSeq len ts = .next t ∧ Bookkept s t n ts (s.pc + BitVec.ofNat 16 len) ∧
      t.main.a = x.1 ∧ t.main.f = x.2 ∧ OnlyAF s t :=
  ⟨_, rfl, bookkept_of rfl rfl rfl rfl, rfl, rfl, rfl⟩

theorem setF_end (s : State) (n len ts : Nat) (f : Byte) :
    ∃ t, ((s.prologue n).setF f).endSeq len ts = .next t ∧ Bookkept s t n ts (s.pc + BitVec.ofNat 16 len) ∧
      t.main.f = f ∧ OnlyF s t :=
  ⟨_, rfl, bookkept_of rfl rfl rfl rfl, rfl, rfl⟩

theorem setResReg_end (s : State) (n len ts : Nat) (r : Reg8) (x : Byte × Byte) {g : Byte → Byte → Byte → Byte → Prop}
    (hg : g (s.reg r) x.1 s.main.f x.2) :
    ∃ t, ((s.prologue n).setResReg r x).endSeq len ts = .next t ∧ Bookkept s t n ts (s.pc + BitVec.ofNat 16 len) ∧
      OnRegister g s t r := by
  have h : ∀ k, RegSet.get { s.main.set r x.1 with f := x.2 } k = (s.main.set r x.1).get k := fun k => by cases k <;> rfl
  refine ⟨_, rfl, bookkept_of rfl rfl rfl rfl, ?_, ?_, rfl⟩
  · have h1 : RegSet.get { s.main.set r x.1 with f := x.2 } r = x.1 := by rw [h, RegSet.get_set_same]
    show g (s.reg r) (RegSet.get { s.main.set r x.1 with f := x.2 } r) s.main.f x.2
    rw [h1]
    exact hg
  · intro k hk
    show RegSet.get { s.main.set r x.1 with f := x.2 } k = s.main.get k
    rw [h, RegSet.get_set_other _ _ hk]

theorem setResMem_end {s : State} (hs : s.mem.wf = true) (n len ts : Nat) (a : Word) (x : Byte × Byte)
    {g : Byte → Byte → Byte → Byte → Prop} (hg : g (s.readByte a) x.1 s.main.f x.2) :
    ∃ t, (((s.prologue n).writeByte a x.1).setF x.2).endSeq len ts = .next t ∧
      Bookkept s t n ts (s.pc + BitVec.ofNat 16 len) ∧ OnMemory g s t a := by
  rw [writeByte_eq, writeByte_mem_congr (s := s) (t := s.prologue n) rfl a x.1]
  exact ⟨_, rfl, bookkept_of rfl rfl rfl rfl, x.1, hg, storedByte_of_mem hs rfl, rfl⟩

theorem setResMemReg_end {s : State} (hs : s.mem.wf = true) (n len ts : Nat) (a : Word) (r : Reg8) (x : Byte × Byte)
    {g : Byte → Byte → Byte → Byte → Prop} (hg : g (s.readByte a) x.1 s.main.f x.2) :
    ∃ t, (((s.prologue n).writeByte a x.1).setResReg r x).endSeq len ts = .next t ∧
      Bookkept s t n ts (s.pc + BitVec.ofNat 16 len) ∧ OnMemoryAndCopy g s t a r := by
  have h : ∀ k, RegSet.get { s.main.set r x.1 with f := x.2 } k = (s.main.set r x.1).get k := fun k => by cases k <;> rfl
  rw [writeByte_eq, writeByte_mem_congr (s := s) (t := s.prologue n) rfl a x.1]
  refine ⟨_, rfl, bookkept_of rfl rfl rfl rfl, x.1, hg, storedByte_of_mem hs rfl, ?_, ?_, rfl⟩
  · exact (h r).trans (RegSet.get_set_same _ _ _)
  · exact fun k hk => (h k).trans (RegSet.get_set_other _ _ hk)

/-! ## Control flow -/

theorem finish_only (s : State) (n ts : Nat) (a : Word) :
    ∃ t, (s.prologue n).finish a ts = .next t ∧ Bookkept s t n ts a ∧ OnlyClocked s t :=
  ⟨_, rfl, bookkept_of rfl rfl rfl rfl, rfl⟩

theorem retTo_end (s : State) (n ts : Nat) :
    ∃ t a, (s.prologue n).retTo ts = .next t ∧ WordAt s s.sp a ∧ Bookkept s t n ts a ∧
      t = { s.clocked t with sp := s.sp + 2 } :=
  ⟨_, s.readWord s.sp, rfl, wordAt_readWord s s.sp, bookkept_of rfl rfl rfl rfl, rfl⟩

theorem returnFromInterrupt_end (s : State) (n ts : Nat) :
    ∃ t a, (s.prologue n).returnFromInterrupt ts = .next t ∧ WordAt s s.sp a ∧ Bookkept s t n ts a ∧
      t = { s.clocked t with sp := s.sp + 2 } :=
  ⟨_, s.readWord s.sp, rfl, wordAt_readWord s s.sp, bookkept_of rfl rfl rfl rfl, rfl⟩

end Sys2Proof.Machine
end

