-- ==== Sys2Proof/Laws/Block.lean ====
section
/-! SUPPORT. The shared operations of Machine/Block.lean: for each step of a block instruction, run after the prologue, the
state it leaves in one record and what that state holds in the terms of Safety.lean; and how a repeating form ends. -/

namespace Sys2Proof.Machine

/-! ## Counting up and down -/

theorem word_pred_toNat (w : Word) : ((w - 1).toNat : Int) = ((w.toNat : Int) - 1) % 65536 := by
  have hw := w.isLt
  have h1 : (1 : Word).toNat = 1 := rfl
  rw [BitVec.toNat_sub, h1]
  omega

theorem byte_pred_toNat (b : Byte) : ((b - 1).toNat : Int) = ((b.toNat : Int) - 1) % 256 := by
  have hb := b.isLt
  have h1 : (1 : Byte).toNat = 1 := rfl
  rw [BitVec.toNat_sub, h1]
  omega

/-- The addend `δ` moves an address by `d` and a byte by `d`. -/
structure Moves (δ : Word) (d : Int) : Prop where
  word : ∀ w : Word, ((w + δ).toNat : Int) = (w.toNat + d) % 65536
  byte : ∀ b : Byte, ((b + loByte δ).toNat : Int) = (b.toNat + d) % 256

theorem moves_up : Moves up 1 := by
  have h1 : up.toNat = 1 := rfl
  have h2 : (loByte up).toNat = 1 := rfl
  constructor
  · intro w
    have := w.isLt
    rw [BitVec.toNat_add, h1]
    omega
  · intro b
    have := b.isLt
    rw [BitVec.toNat_add, h2]
    omega

theorem moves_down : Moves down (-1) := by
  have h1 : down.toNat = 65535 := rfl
  have h2 : (loByte down).toNat = 255 := rfl
  constructor
  · intro w
    have := w.isLt
    rw [BitVec.toNat_add, h1]
    omega
  · intro b
    have := b.isLt
    rw [BitVec.toNat_add, h2]
    omega

/-! ## How a repeating form ends (rule R275) -/

theorem repeatsOrEnds_of {s t : State} {again : Prop} [Decidable again] (h1 : t.pc = if again then s.pc else s.pc + 2)
    (h2 : t.t = s.t + (if again then 21 else 16)) (h3 : t.r = (s.incR 2).r) (h4 : t.last = .other) :
    RepeatsOrEnds s t again := by
  constructor
  · intro ha
    exact bookkept_of (by rw [h1, if_pos ha]) (by rw [h2, if_pos ha]) h3 h4
  · intro ha
    exact bookkept_of (by rw [h1, if_neg ha]) (by rw [h2, if_neg ha]) h3 h4

/-- A single form after a step `u` that kept PC, T, R and LAST of the prologue. -/
theorem block_end {s u : State} (h1 : u.pc = s.pc) (h2 : u.t = s.t) (h3 : u.r = (s.incR 2).r) (h4 : u.last = .other) :
    ∃ t, u.endSeq 2 16 = .next t ∧ Bookkept s t 2 16 (s.pc + 2) ∧ t = { u with t := t.t, pc := t.pc } :=
  ⟨_, rfl, bookkept_of (congrArg (· + 2) h1) (congrArg (· + 16) h2) h3 h4, rfl⟩

/-- A repeating form after such a step. -/
theorem block_repeat {s u : State} (c : Bool) (h1 : u.pc = s.pc) (h2 : u.t = s.t) (h3 : u.r = (s.incR 2).r)
    (h4 : u.last = .other) :
    ∃ t, u.repeatOrEnd c = .next t ∧ RepeatsOrEnds s t (c = true) ∧ t = { u with t := t.t, pc := t.pc } := by
  rw [repeatOrEnd_next, h1, h2]
  exact ⟨_, rfl, repeatsOrEnds_of rfl rfl h3 h4, rfl⟩

/-! ## Block transfer (rules R277, R278) -/

/-- What the step leaves. -/
theorem ldStep_eq (s : State) (δ : Word) :
    (s.prologue 2).ldStep δ =
      { s.prologue 2 with
        mem := (s.writeByte s.de (s.readByte s.hl)).mem,
        main := { s.main with
          h := hiByte (s.hl + δ), l := loByte (s.hl + δ), d := hiByte (s.de + δ), e := loByte (s.de + δ),
          b := hiByte (s.bc - 1), c := loByte (s.bc - 1),
          f := ldiF (s.readByte s.hl) s.main.a (s.bc - 1) s.main.f } } := by
  have hw : ((s.prologue 2).writeByte (s.prologue 2).de ((s.prologue 2).readByte (s.prologue 2).hl)) =
      { s.prologue 2 with mem := (s.writeByte s.de (s.readByte s.hl)).mem } := by
    rw [writeByte_eq, writeByte_mem_congr (s := s) (t := s.prologue 2) rfl]
    rfl
  unfold State.ldStep
  simp only [hw, State.setF, State.setBC, State.setDE, State.setHL, State.bc, RegSet.bc, RegSet.setBC, RegSet.setHL,
    RegSet.setDE, pair_hi_lo]
  rfl

theorem ldStep_spec {s t : State} (hs : s.mem.wf = true) {δ : Word} {d : Int} (hd : Moves δ d)
    (h : t = { (s.prologue 2).ldStep δ with t := t.t, pc := t.pc }) : BlockCopied s t d := by
  rw [ldStep_eq] at h
  have hm := congrArg State.main h
  have hmem := congrArg State.mem h
  have hbc : t.bc = s.bc - 1 := by simp only [State.bc, hm, RegSet.bc, pair_hi_lo]
  refine ⟨storedByte_of_mem hs hmem, ?_, ?_, ?_, ?_, ?_, ?_⟩
  · simp only [State.hl, hm, RegSet.hl, pair_hi_lo]; exact hd.word _
  · simp only [State.de, hm, RegSet.de, pair_hi_lo]; exact hd.word _
  · rw [hbc]; exact word_pred_toNat _
  · rw [hm]
  · rw [hbc, hm]; exact ldiF_flags _ _ _ _
  · rw [h]; rfl

/-! ## Block compare (rules R281, R282) -/

/-- What the step leaves. -/
theorem cpStep_eq (s : State) (δ : Word) :
    (s.prologue 2).cpStep δ =
      { s.prologue 2 with
        main := { s.main with
          h := hiByte (s.hl + δ), l := loByte (s.hl + δ), b := hiByte (s.bc - 1), c := loByte (s.bc - 1),
          f := cpiF (s.readByte s.hl) s.main.a (s.bc - 1) s.main.f } } := by
  unfold State.cpStep
  simp only [State.setF, State.setBC, State.setHL, State.bc, RegSet.bc, RegSet.setBC, RegSet.setHL, pair_hi_lo]
  rfl

theorem cpStep_spec {s t : State} {δ : Word} {d : Int} (hd : Moves δ d)
    (h : t = { (s.prologue 2).cpStep δ with t := t.t, pc := t.pc }) : BlockCompared s t d := by
  rw [cpStep_eq] at h
  have hm := congrArg State.main h
  have hbc : t.bc = s.bc - 1 := by simp only [State.bc, hm, RegSet.bc, pair_hi_lo]
  refine ⟨?_, ?_, ⟨?_, ?_⟩, ?_, ?_⟩
  · simp only [State.hl, hm, RegSet.hl, pair_hi_lo]; exact hd.word _
  · rw [hbc]; exact word_pred_toNat _
  · simp only [State.de, hm, RegSet.de]
  · rw [hm]
  · intro r n hr hn
    rw [hbc, hm]
    exact cpiF_flags _ _ _ _ _ _ hr hn
  · rw [h]; rfl

/-- A repeating compare goes again while BC ≠ 0 and the byte differs from A (rules R283, R284). -/
theorem cpRepeat_eq (s : State) (δ : Word) :
    (s.prologue 2).cpRepeat δ =
      ((s.prologue 2).cpStep δ).repeatOrEnd (decide (s.bc - 1 ≠ 0 ∧ s.main.a ≠ s.readByte s.hl)) := by
  have hbc : ((s.prologue 2).cpStep δ).bc = s.bc - 1 := by
    simp only [cpStep_eq, State.bc, RegSet.bc, pair_hi_lo]
  have ha : ((s.prologue 2).cpStep δ).main.a = s.main.a := by rw [cpStep_eq]
  have hv : (s.prologue 2).readByte (s.prologue 2).hl = s.readByte s.hl := rfl
  unfold State.cpRepeat
  simp only [hbc, ha, hv]
  congr 1
  rw [Bool.eq_iff_iff]
  simp

/-! ## Block input (rules R285, R286) -/

/-- What the step leaves. -/
theorem inStep_eq (s : State) (δ : Word) :
    (s.prologue 2).inStep δ =
      { s.prologue 2 with
        mem := (s.writeByte s.hl (s.portRead s.bc).1).mem,
        readPort := (s.portRead s.bc).2.readPort,
        portReads := (s.portRead s.bc).2.portReads,
        main := { s.main with
          b := s.main.b - 1, h := hiByte (s.hl + δ), l := loByte (s.hl + δ),
          f := iobF (s.portRead s.bc).1 ((s.portRead s.bc).1.toNat + (s.main.c + loByte δ).toNat) (s.main.b - 1) } } := by
  have hp : (s.prologue 2).portRead (s.prologue 2).bc =
      ((s.portRead s.bc).1,
        { s.prologue 2 with readPort := (s.portRead s.bc).2.readPort, portReads := (s.portRead s.bc).2.portReads }) := by
    have h0 : (s.prologue 2).bc = s.bc := rfl
    have h1 : (s.prologue 2).readPort = s.readPort := rfl
    unfold State.portRead
    rw [h0, h1]
    rcases s.readPort with _ | _ | _ <;> rfl
  have hw : (State.writeByte
      { s.prologue 2 with readPort := (s.portRead s.bc).2.readPort, portReads := (s.portRead s.bc).2.portReads } s.hl
      (s.portRead s.bc).1) =
      { s.prologue 2 with
        mem := (s.writeByte s.hl (s.portRead s.bc).1).mem,
        readPort := (s.portRead s.bc).2.readPort,
        portReads := (s.portRead s.bc).2.portReads } := by
    rw [writeByte_eq]
    congr 1
    apply writeByte_mem_congr
    rfl
  have hl : (State.hl
      { s.prologue 2 with readPort := (s.portRead s.bc).2.readPort, portReads := (s.portRead s.bc).2.portReads }) = s.hl :=
    rfl
  unfold State.inStep
  simp only [hp, hl, hw, State.setF, State.setReg, State.setHL, RegSet.set, RegSet.setHL]
  rfl

theorem inStep_spec {s t : State} (hs : s.mem.wf = true) {δ : Word} {d : Int} (hd : Moves δ d)
    (h : t = { (s.prologue 2).inStep δ with t := t.t, pc := t.pc }) : BlockInput s t d := by
  rw [inStep_eq] at h
  have hm := congrArg State.main h
  have hmem := congrArg State.mem h
  have hport := congrArg State.readPort h
  have hreads := congrArg State.portReads h
  have hb : t.main.b = s.main.b - 1 := by rw [hm]
  refine ⟨(s.portRead s.bc).1, portRead_spec _ hport hreads, storedByte_of_mem hs hmem, ?_, ?_, ?_, ?_⟩
  · rw [hb]; exact byte_pred_toNat _
  · simp only [State.hl, hm, RegSet.hl, pair_hi_lo]; exact hd.word _
  · intro j hj
    have h1 := hd.byte s.main.c
    have h2 : j = (s.main.c + loByte δ).toNat := by omega
    rw [hb, hm, h2]
    exact iobF_flags _ _ _
  · rw [h]; rfl

/-! ## Block output (rules R289, R290) -/

/-- What the step leaves. -/
theorem outStep_eq (s : State) (δ : Word) :
    (s.prologue 2).outStep δ =
      { s.prologue 2 with
        portWrites := s.portWrites ++ [⟨pair (s.main.b - 1) s.main.c, s.readByte s.hl⟩],
        main := { s.main with
          b := s.main.b - 1, h := hiByte (s.hl + δ), l := loByte (s.hl + δ),
          f := iobF (s.readByte s.hl) ((s.readByte s.hl).toNat + (loByte (s.hl + δ)).toNat) (s.main.b - 1) } } := rfl

theorem outStep_spec {s t : State} {δ : Word} {d : Int} (hd : Moves δ d)
    (h : t = { (s.prologue 2).outStep δ with t := t.t, pc := t.pc }) : BlockOutput s t d := by
  rw [outStep_eq] at h
  have hm := congrArg State.main h
  have hb : t.main.b = s.main.b - 1 := by rw [hm]
  refine ⟨?_, ?_, ?_, ?_, ?_⟩
  · rw [hb]; exact byte_pred_toNat _
  · simp only [State.hl, hm, RegSet.hl, pair_hi_lo]; exact hd.word _
  · intro p hp
    have h1 : p = pair (s.main.b - 1) s.main.c := by
      apply BitVec.eq_of_toNat_eq
      rw [pair_toNat, hp, hb]
    rw [h1]
    exact congrArg State.portWrites h
  · rw [hm]; exact iobF_flags _ _ _
  · rw [h]; rfl

end Sys2Proof.Machine
end

