-- ==== Sys2Proof/Laws/PerInstr.lean ====
section
/-! SUPPORT. The per-instruction family `EncodedLength`: the encoder gives an instruction as many bytes as the length column
of opcode_table.json says (rule R80). One lemma per constructor of `Instr`. -/

namespace Sys2Proof.Laws.EncodedLength

open Sys2Proof

/-- The encoder gives the bytes the length column counts. -/
def Statement (i : Instr) : Prop := (encode i).length = i.length

theorem nop : Statement .nop := rfl

theorem ldRpNn (rp : RegPair) (nn : Word) : Statement (.ldRpNn rp nn) := rfl

theorem ldIndA (q : IndPair) : Statement (.ldIndA q) := rfl

theorem incRp (rp : RegPair) : Statement (.incRp rp) := rfl

theorem incR (r : Reg8) : Statement (.incR r) := rfl

theorem incAtHL : Statement .incAtHL := rfl

theorem decR (r : Reg8) : Statement (.decR r) := rfl

theorem decAtHL : Statement .decAtHL := rfl

theorem ldRN (r : Reg8) (n : Byte) : Statement (.ldRN r n) := rfl

theorem ldAtHLN (n : Byte) : Statement (.ldAtHLN n) := rfl

theorem rlca : Statement .rlca := rfl

theorem rrca : Statement .rrca := rfl

theorem rla : Statement .rla := rfl

theorem rra : Statement .rra := rfl

theorem daa : Statement .daa := rfl

theorem cpl : Statement .cpl := rfl

theorem scf : Statement .scf := rfl

theorem ccf : Statement .ccf := rfl

theorem exAfAf : Statement .exAfAf := rfl

theorem addHLRp (rp : RegPair) : Statement (.addHLRp rp) := rfl

theorem ldAInd (q : IndPair) : Statement (.ldAInd q) := rfl

theorem decRp (rp : RegPair) : Statement (.decRp rp) := rfl

theorem djnz (e : Byte) : Statement (.djnz e) := rfl

theorem jr (e : Byte) : Statement (.jr e) := rfl

theorem jrCc (cc : Cond) (e : Byte) : Statement (.jrCc cc e) := rfl

theorem ldAtNnHL (nn : Word) : Statement (.ldAtNnHL nn) := rfl

theorem ldHLAtNn (nn : Word) : Statement (.ldHLAtNn nn) := rfl

theorem ldAtNnA (nn : Word) : Statement (.ldAtNnA nn) := rfl

theorem ldAAtNn (nn : Word) : Statement (.ldAAtNn nn) := rfl

theorem ldRR (r : Reg8) (s : Reg8) : Statement (.ldRR r s) := rfl

theorem ldRAtHL (r : Reg8) : Statement (.ldRAtHL r) := rfl

theorem ldAtHLR (s : Reg8) : Statement (.ldAtHLR s) := rfl

theorem halt : Statement .halt := rfl

theorem addAR (s : Reg8) : Statement (.addAR s) := rfl

theorem addAAtHL : Statement .addAAtHL := rfl

theorem addAN (n : Byte) : Statement (.addAN n) := rfl

theorem adcAR (s : Reg8) : Statement (.adcAR s) := rfl

theorem adcAAtHL : Statement .adcAAtHL := rfl

theorem adcAN (n : Byte) : Statement (.adcAN n) := rfl

theorem subR (s : Reg8) : Statement (.subR s) := rfl

theorem subAtHL : Statement .subAtHL := rfl

theorem subN (n : Byte) : Statement (.subN n) := rfl

theorem sbcAR (s : Reg8) : Statement (.sbcAR s) := rfl

theorem sbcAAtHL : Statement .sbcAAtHL := rfl

theorem sbcAN (n : Byte) : Statement (.sbcAN n) := rfl

theorem andR (s : Reg8) : Statement (.andR s) := rfl

theorem andAtHL : Statement .andAtHL := rfl

theorem andN (n : Byte) : Statement (.andN n) := rfl

theorem xorR (s : Reg8) : Statement (.xorR s) := rfl

theorem xorAtHL : Statement .xorAtHL := rfl

theorem xorN (n : Byte) : Statement (.xorN n) := rfl

theorem orR (s : Reg8) : Statement (.orR s) := rfl

theorem orAtHL : Statement .orAtHL := rfl

theorem orN (n : Byte) : Statement (.orN n) := rfl

theorem cpR (s : Reg8) : Statement (.cpR s) := rfl

theorem cpAtHL : Statement .cpAtHL := rfl

theorem cpN (n : Byte) : Statement (.cpN n) := rfl

theorem retCc (cc : Cond) : Statement (.retCc cc) := rfl

theorem popRp (rp : StackPair) : Statement (.popRp rp) := rfl

theorem jpCcNn (cc : Cond) (nn : Word) : Statement (.jpCcNn cc nn) := rfl

theorem jpNn (nn : Word) : Statement (.jpNn nn) := rfl

theorem outNA (n : Byte) : Statement (.outNA n) := rfl

theorem inAN (n : Byte) : Statement (.inAN n) := rfl

theorem exSPHL : Statement .exSPHL := rfl

theorem exDEHL : Statement .exDEHL := rfl

theorem di : Statement .di := rfl

theorem ei : Statement .ei := rfl

theorem callCcNn (cc : Cond) (nn : Word) : Statement (.callCcNn cc nn) := rfl

theorem pushRp (rp : StackPair) : Statement (.pushRp rp) := rfl

theorem callNn (nn : Word) : Statement (.callNn nn) := rfl

theorem rst (p : BitVec 3) : Statement (.rst p) := rfl

theorem ret : Statement .ret := rfl

theorem exx : Statement .exx := rfl

theorem jpHL : Statement .jpHL := rfl

theorem ldSPHL : Statement .ldSPHL := rfl

theorem prefixCB : Statement .prefixCB := rfl

theorem prefixED : Statement .prefixED := rfl

theorem prefixDD : Statement .prefixDD := rfl

theorem prefixFD : Statement .prefixFD := rfl

theorem rlcR (s : Reg8) : Statement (.rlcR s) := rfl

theorem rlcAtHL : Statement .rlcAtHL := rfl

theorem rrcR (s : Reg8) : Statement (.rrcR s) := rfl

theorem rrcAtHL : Statement .rrcAtHL := rfl

theorem rlR (s : Reg8) : Statement (.rlR s) := rfl

theorem rlAtHL : Statement .rlAtHL := rfl

theorem rrR (s : Reg8) : Statement (.rrR s) := rfl

theorem rrAtHL : Statement .rrAtHL := rfl

theorem slaR (s : Reg8) : Statement (.slaR s) := rfl

theorem slaAtHL : Statement .slaAtHL := rfl

theorem sraR (s : Reg8) : Statement (.sraR s) := rfl

theorem sraAtHL : Statement .sraAtHL := rfl

theorem sllR (s : Reg8) : Statement (.sllR s) := rfl

theorem sllAtHL : Statement .sllAtHL := rfl

theorem srlR (s : Reg8) : Statement (.srlR s) := rfl

theorem srlAtHL : Statement .srlAtHL := rfl

theorem bitR (b : BitVec 3) (s : Reg8) : Statement (.bitR b s) := rfl

theorem bitAtHL (b : BitVec 3) : Statement (.bitAtHL b) := rfl

theorem resR (b : BitVec 3) (s : Reg8) : Statement (.resR b s) := rfl

theorem resAtHL (b : BitVec 3) : Statement (.resAtHL b) := rfl

theorem setR (b : BitVec 3) (s : Reg8) : Statement (.setR b s) := rfl

theorem setAtHL (b : BitVec 3) : Statement (.setAtHL b) := rfl

theorem inRC (r : Reg8) : Statement (.inRC r) := rfl

theorem inFC : Statement .inFC := rfl

theorem outCR (r : Reg8) : Statement (.outCR r) := rfl

theorem outC0 : Statement .outC0 := rfl

theorem sbcHLRp (rp : RegPair) : Statement (.sbcHLRp rp) := rfl

theorem adcHLRp (rp : RegPair) : Statement (.adcHLRp rp) := rfl

theorem ldAtNnRp (rp : RegPair) (nn : Word) : Statement (.ldAtNnRp rp nn) := rfl

theorem ldRpAtNn (rp : RegPair) (nn : Word) : Statement (.ldRpAtNn rp nn) := rfl

theorem neg (y : BitVec 3) : Statement (.neg y) := rfl

theorem retn (y : BitVec 3) : Statement (.retn y) := rfl

theorem reti : Statement .reti := rfl

theorem im0 (y : BitVec 3) : Statement (.im0 y) := rfl

theorem im1 (y : BitVec 3) : Statement (.im1 y) := rfl

theorem im2 (y : BitVec 3) : Statement (.im2 y) := rfl

theorem ldIA : Statement .ldIA := rfl

theorem ldRA : Statement .ldRA := rfl

theorem ldAI : Statement .ldAI := rfl

theorem ldAR : Statement .ldAR := rfl

theorem rrd : Statement .rrd := rfl

theorem rld : Statement .rld := rfl

theorem nopED77 : Statement .nopED77 := rfl

theorem nopED7F : Statement .nopED7F := rfl

theorem ldi : Statement .ldi := rfl

theorem cpi : Statement .cpi := rfl

theorem ini : Statement .ini := rfl

theorem outi : Statement .outi := rfl

theorem ldd : Statement .ldd := rfl

theorem cpd : Statement .cpd := rfl

theorem ind : Statement .ind := rfl

theorem outd : Statement .outd := rfl

theorem ldir : Statement .ldir := rfl

theorem cpir : Statement .cpir := rfl

theorem inir : Statement .inir := rfl

theorem otir : Statement .otir := rfl

theorem lddr : Statement .lddr := rfl

theorem cpdr : Statement .cpdr := rfl

theorem indr : Statement .indr := rfl

theorem otdr : Statement .otdr := rfl

theorem nopEDLow (x : BitVec 6) : Statement (.nopEDLow x) := rfl

theorem nopEDHigh (x : BitVec 6) : Statement (.nopEDHigh x) := rfl

theorem nopEDMid (x : BitVec 6) : Statement (.nopEDMid x) := rfl

theorem addXYRp (xy : XY) (pp : IdxPair) : Statement (.addXYRp xy pp) := rfl

theorem ldXYNn (xy : XY) (nn : Word) : Statement (.ldXYNn xy nn) := rfl

theorem ldAtNnXY (xy : XY) (nn : Word) : Statement (.ldAtNnXY xy nn) := rfl

theorem incXY (xy : XY) : Statement (.incXY xy) := rfl

theorem incXYH (xy : XY) (h : Half) : Statement (.incXYH xy h) := rfl

theorem decXYH (xy : XY) (h : Half) : Statement (.decXYH xy h) := rfl

theorem ldXYHN (xy : XY) (h : Half) (n : Byte) : Statement (.ldXYHN xy h n) := rfl

theorem ldXYAtNn (xy : XY) (nn : Word) : Statement (.ldXYAtNn xy nn) := rfl

theorem decXY (xy : XY) : Statement (.decXY xy) := rfl

theorem incAtXY (xy : XY) (d : Byte) : Statement (.incAtXY xy d) := rfl

theorem decAtXY (xy : XY) (d : Byte) : Statement (.decAtXY xy d) := rfl

theorem ldAtXYN (xy : XY) (d : Byte) (n : Byte) : Statement (.ldAtXYN xy d n) := rfl

theorem ldRXYH (xy : XY) (r : Reg8) (h : Half) : Statement (.ldRXYH xy r h) := rfl

theorem ldXYHR (xy : XY) (h : Half) (s : Reg8) : Statement (.ldXYHR xy h s) := rfl

theorem ldXYHXYH (xy : XY) (h : Half) (k : Half) : Statement (.ldXYHXYH xy h k) := rfl

theorem ldRAtXY (xy : XY) (r : Reg8) (d : Byte) : Statement (.ldRAtXY xy r d) := rfl

theorem ldAtXYR (xy : XY) (s : Reg8) (d : Byte) : Statement (.ldAtXYR xy s d) := rfl

theorem addAXYH (xy : XY) (h : Half) : Statement (.addAXYH xy h) := rfl

theorem addAAtXY (xy : XY) (d : Byte) : Statement (.addAAtXY xy d) := rfl

theorem adcAXYH (xy : XY) (h : Half) : Statement (.adcAXYH xy h) := rfl

theorem adcAAtXY (xy : XY) (d : Byte) : Statement (.adcAAtXY xy d) := rfl

theorem subXYH (xy : XY) (h : Half) : Statement (.subXYH xy h) := rfl

theorem subAtXY (xy : XY) (d : Byte) : Statement (.subAtXY xy d) := rfl

theorem sbcAXYH (xy : XY) (h : Half) : Statement (.sbcAXYH xy h) := rfl

theorem sbcAAtXY (xy : XY) (d : Byte) : Statement (.sbcAAtXY xy d) := rfl

theorem andXYH (xy : XY) (h : Half) : Statement (.andXYH xy h) := rfl

theorem andAtXY (xy : XY) (d : Byte) : Statement (.andAtXY xy d) := rfl

theorem xorXYH (xy : XY) (h : Half) : Statement (.xorXYH xy h) := rfl

theorem xorAtXY (xy : XY) (d : Byte) : Statement (.xorAtXY xy d) := rfl

theorem orXYH (xy : XY) (h : Half) : Statement (.orXYH xy h) := rfl

theorem orAtXY (xy : XY) (d : Byte) : Statement (.orAtXY xy d) := rfl

theorem cpXYH (xy : XY) (h : Half) : Statement (.cpXYH xy h) := rfl

theorem cpAtXY (xy : XY) (d : Byte) : Statement (.cpAtXY xy d) := rfl

theorem prefixXYCB (xy : XY) : Statement (.prefixXYCB xy) := rfl

theorem popXY (xy : XY) : Statement (.popXY xy) := rfl

theorem exSPXY (xy : XY) : Statement (.exSPXY xy) := rfl

theorem pushXY (xy : XY) : Statement (.pushXY xy) := rfl

theorem jpXY (xy : XY) : Statement (.jpXY xy) := rfl

theorem ldSPXY (xy : XY) : Statement (.ldSPXY xy) := rfl

theorem lonePrefix (xy : XY) : Statement (.lonePrefix xy) := rfl

theorem rlcAtXY (xy : XY) (d : Byte) : Statement (.rlcAtXY xy d) := rfl

theorem rlcAtXYR (xy : XY) (d : Byte) (s : Reg8) : Statement (.rlcAtXYR xy d s) := rfl

theorem rrcAtXY (xy : XY) (d : Byte) : Statement (.rrcAtXY xy d) := rfl

theorem rrcAtXYR (xy : XY) (d : Byte) (s : Reg8) : Statement (.rrcAtXYR xy d s) := rfl

theorem rlAtXY (xy : XY) (d : Byte) : Statement (.rlAtXY xy d) := rfl

theorem rlAtXYR (xy : XY) (d : Byte) (s : Reg8) : Statement (.rlAtXYR xy d s) := rfl

theorem rrAtXY (xy : XY) (d : Byte) : Statement (.rrAtXY xy d) := rfl

theorem rrAtXYR (xy : XY) (d : Byte) (s : Reg8) : Statement (.rrAtXYR xy d s) := rfl

theorem slaAtXY (xy : XY) (d : Byte) : Statement (.slaAtXY xy d) := rfl

theorem slaAtXYR (xy : XY) (d : Byte) (s : Reg8) : Statement (.slaAtXYR xy d s) := rfl

theorem sraAtXY (xy : XY) (d : Byte) : Statement (.sraAtXY xy d) := rfl

theorem sraAtXYR (xy : XY) (d : Byte) (s : Reg8) : Statement (.sraAtXYR xy d s) := rfl

theorem sllAtXY (xy : XY) (d : Byte) : Statement (.sllAtXY xy d) := rfl

theorem sllAtXYR (xy : XY) (d : Byte) (s : Reg8) : Statement (.sllAtXYR xy d s) := rfl

theorem srlAtXY (xy : XY) (d : Byte) : Statement (.srlAtXY xy d) := rfl

theorem srlAtXYR (xy : XY) (d : Byte) (s : Reg8) : Statement (.srlAtXYR xy d s) := rfl

theorem bitAtXY (xy : XY) (d : Byte) (b : BitVec 3) (z : BitVec 3) : Statement (.bitAtXY xy d b z) := rfl

theorem resAtXY (xy : XY) (d : Byte) (b : BitVec 3) : Statement (.resAtXY xy d b) := rfl

theorem resAtXYR (xy : XY) (d : Byte) (b : BitVec 3) (s : Reg8) : Statement (.resAtXYR xy d b s) := rfl

theorem setAtXY (xy : XY) (d : Byte) (b : BitVec 3) : Statement (.setAtXY xy d b) := rfl

theorem setAtXYR (xy : XY) (d : Byte) (b : BitVec 3) (s : Reg8) : Statement (.setAtXYR xy d b s) := rfl

end Sys2Proof.Laws.EncodedLength
end

