-- ==== Sys2Proof/Laws/TablePrefix.lean ====
section
/-! SUPPORT. The tables after a prefix hold none of the rows that `runTableEntry` has no arm for: running a table's entry is
running that instruction (rules R82, R98 to R101). -/

namespace Sys2Proof.Machine

theorem runTableEntry_rotReg (y : BitVec 3) (r : Reg8) (s : State) :
    runTableEntry (rotReg y r) s = exec (rotReg y r) s := by
  unfold rotReg; split <;> rfl

theorem runTableEntry_rotAtHL (y : BitVec 3) (s : State) : runTableEntry (rotAtHL y) s = exec (rotAtHL y) s := by
  unfold rotAtHL; split <;> rfl

theorem runTableEntry_rotAtXY (x : XY) (d : Byte) (y : BitVec 3) (s : State) :
    runTableEntry (rotAtXY x d y) s = exec (rotAtXY x d y) s := by
  unfold rotAtXY; split <;> rfl

theorem runTableEntry_rotAtXYR (x : XY) (d : Byte) (y : BitVec 3) (r : Reg8) (s : State) :
    runTableEntry (rotAtXYR x d y r) s = exec (rotAtXYR x d y r) s := by
  unfold rotAtXYR; split <;> rfl

theorem runTableEntry_aluHalf (x : XY) (o : BitVec 3) (h : Half) (s : State) :
    runTableEntry (aluHalf x o h) s = exec (aluHalf x o h) s := by
  unfold aluHalf; split <;> rfl

theorem runTableEntry_aluAtXY (x : XY) (o : BitVec 3) (d : Byte) (s : State) :
    runTableEntry (aluAtXY x o d) s = exec (aluAtXY x o d) s := by
  unfold aluAtXY; split <;> rfl

theorem runTableEntry_decodeCB (op : Byte) (s : State) : runTableEntry (decodeCB op) s = exec (decodeCB op) s := by
  unfold decodeCB
  split <;> split <;> first | rfl | exact runTableEntry_rotReg _ _ s | exact runTableEntry_rotAtHL _ s

theorem runTableEntry_decodeED1 (op b2 b3 : Byte) (s : State) :
    runTableEntry (decodeED1 op b2 b3) s = exec (decodeED1 op b2 b3) s := by
  unfold decodeED1
  simp only []
  split <;> (try split) <;> rfl

theorem runTableEntry_decodeED2 (op : Byte) (s : State) : runTableEntry (decodeED2 op) s = exec (decodeED2 op) s := by
  unfold decodeED2; split <;> rfl

theorem runTableEntry_decodeED (op b2 b3 : Byte) (s : State) :
    runTableEntry (decodeED op b2 b3) s = exec (decodeED op b2 b3) s := by
  unfold decodeED
  split
  · rfl
  · exact runTableEntry_decodeED1 op b2 b3 s
  · exact runTableEntry_decodeED2 op s
  · rfl

theorem runTableEntry_decodeXYCB (x : XY) (d op : Byte) (s : State) :
    runTableEntry (decodeXYCB x d op) s = exec (decodeXYCB x d op) s := by
  unfold decodeXYCB
  simp only []
  split <;> (try split) <;> first | rfl | exact runTableEntry_rotAtXYR _ _ _ _ s | exact runTableEntry_rotAtXY _ _ _ s

theorem runTableEntry_decodeXY0 (x : XY) (op b2 b3 : Byte) (s : State) :
    runTableEntry (decodeXY0 x op b2 b3) s = exec (decodeXY0 x op b2 b3) s := by
  unfold decodeXY0
  simp only []
  split <;> (try split) <;> (try split) <;> rfl

theorem runTableEntry_decodeXY1 (x : XY) (op b2 : Byte) (s : State) :
    runTableEntry (decodeXY1 x op b2) s = exec (decodeXY1 x op b2) s := by
  unfold decodeXY1
  simp only []
  split <;> (try split) <;> rfl

theorem runTableEntry_decodeXY (x : XY) (op b2 b3 : Byte) (s : State) :
    runTableEntry (decodeXY x op b2 b3) s = exec (decodeXY x op b2 b3) s := by
  unfold decodeXY
  split
  · exact runTableEntry_decodeXY0 x op b2 b3 s
  · exact runTableEntry_decodeXY1 x op b2 s
  · split <;> first | rfl | exact runTableEntry_aluAtXY _ _ _ s | exact runTableEntry_aluHalf _ _ _ s
  · split
    · exact runTableEntry_decodeXYCB x b2 b3 s
    · split <;> (try split) <;> (try split) <;> (try split) <;> (try split) <;> rfl

end Sys2Proof.Machine
end

