-- ==== Sys2Proof/Tests/Slice0.lean ====
section
/-! SUPPORT. The model's own tests: the checks of WellFormed on ill-formed terms; every constructor's decoding on a word
written out from the spec's encodings; single steps with the end states of spec/95_test_vectors.md and of the rules'
examples; and for every obligation with a hypothesis a state and operands that meet it. -/

namespace Sys2Proof.Tests

open Sys2Proof Sys2Proof.Machine

/-! ## Helpers -/

/-- Bytes placed from an address on. -/
def placed (s : State) (a : Word) : List Byte → State
  | [] => s
  | b :: rest => placed (s.pokeByte a b) (a + 1) rest

/-- The construction state with code at 0x8000 and PC there (95_test_vectors.md, section 1). -/
def code (bs : List Byte) : State := { placed State.reset 0x8000 bs with pc := 0x8000 }

/-- The state after one step. -/
def after (s : State) : State :=
  match step s with
  | .next t => t
  | .fault _ => s
  | .refused _ => s

/-- The state after an instruction. -/
def ran (i : Instr) (s : State) : State :=
  match exec i s with
  | .next t => t
  | .fault _ => s
  | .refused _ => s

/-- Whether a list of bytes decodes to an instruction with a list of bytes left over. -/
def decodes (bs : List Byte) (i : Instr) (left : List Byte) : Bool :=
  match decode bs with
  | .ok p => decide (p = (i, left))
  | .error _ => false

/-- Whether a list of bytes is rejected as truncated. -/
def truncated (bs : List Byte) : Bool :=
  match decode bs with
  | .ok _ => false
  | .error e => decide (e = .truncated)

/-- A and F given. -/
def withAF (s : State) (a f : Byte) : State := { s with main := { s.main with a := a, f := f } }

/-- PC, R and T, which every vector states. -/
def clock (s : State) : Nat × Nat × Nat := (s.pc.toNat, s.r.toNat, s.t)

/-! ## WellFormed: an ill-formed term for each check, and a well-formed neighbour -/

/-- `JR cc` has no PO, PE, P, M (R303). -/
theorem test_wf_jr : Instr.wf (.jrCc .po 0) = false ∧ Instr.wf (.jrCc .m 0) = false ∧ Instr.wf (.jrCc .c 0) = true := by
  decide

/-- y = 1 is RETI, not a RETN (R337, R338). -/
theorem test_wf_retn : Instr.wf (.retn 1) = false ∧ Instr.wf (.retn 0) = true ∧ Instr.wf (.retn 7) = true := by decide

/-- IM 0 is y mod 4 of 0 or 1, IM 1 of 2, IM 2 of 3 (R334 to R336). -/
theorem test_wf_im :
    Instr.wf (.im0 2) = false ∧ Instr.wf (.im0 5) = true ∧ Instr.wf (.im1 3) = false ∧ Instr.wf (.im1 6) = true ∧
    Instr.wf (.im2 0) = false ∧ Instr.wf (.im2 7) = true := by decide

/-- ED A0 is LDI, not a no-op; ED A4 is a no-op (R339). -/
theorem test_wf_edNoOp : Instr.wf (.nopEDMid 0x20) = false ∧ Instr.wf (.nopEDMid 0x24) = true := by decide

/-- The half loads name no H and no L (R181). -/
theorem test_wf_halfLoads :
    Instr.wf (.ldRXYH .ix .h .lo) = false ∧ Instr.wf (.ldRXYH .iy .l .hi) = false ∧ Instr.wf (.ldXYHR .ix .hi .h) = false ∧
    Instr.wf (.ldXYHR .iy .lo .l) = false ∧ Instr.wf (.ldRXYH .ix .a .lo) = true := by decide

/-- A prefix row is no complete instruction (R12). -/
theorem test_wf_prefix :
    Instr.wf .prefixCB = false ∧ Instr.wf .prefixED = false ∧ Instr.wf .prefixDD = false ∧ Instr.wf .prefixFD = false ∧
    Instr.wf (.prefixXYCB .ix) = false ∧ Instr.wf (.lonePrefix .ix) = true := by decide

/-! ## Decoding -/

/-- Words of the main table written out from their encodings (R97). -/
theorem test_decode_main_1 :
    decodes [0b00000000] .nop [] ∧
    decodes [0b00100001, 0b01001101, 0b11001010] (.ldRpNn .hl 0xCA4D) [] ∧
    decodes [0b00000010] (.ldIndA .bc) [] ∧
    decodes [0b00000011] (.incRp .bc) [] ∧
    decodes [0b00111100] (.incR .a) [] ∧
    decodes [0b00110100] .incAtHL [] ∧
    decodes [0b00100101] (.decR .h) [] ∧
    decodes [0b00110101] .decAtHL [] ∧
    decodes [0b00000110, 0b10111011] (.ldRN .b 0xBB) [] ∧
    decodes [0b00110110, 0b00011101] (.ldAtHLN 0x1D) [] ∧
    decodes [0b00000111] .rlca [] ∧
    decodes [0b00001111] .rrca [] := by decide

/-- Words of the main table written out from their encodings (R97). -/
theorem test_decode_main_2 :
    decodes [0b00010111] .rla [] ∧
    decodes [0b00011111] .rra [] ∧
    decodes [0b00100111] .daa [] ∧
    decodes [0b00101111] .cpl [] ∧
    decodes [0b00110111] .scf [] ∧
    decodes [0b00111111] .ccf [] ∧
    decodes [0b00001000] .exAfAf [] ∧
    decodes [0b00011001] (.addHLRp .de) [] ∧
    decodes [0b00001010] (.ldAInd .bc) [] ∧
    decodes [0b00001011] (.decRp .bc) [] ∧
    decodes [0b00010000, 0b11011110] (.djnz 0xDE) [] ∧
    decodes [0b00011000, 0b11010110] (.jr 0xD6) [] := by decide

/-- Words of the main table written out from their encodings (R97). -/
theorem test_decode_main_3 :
    decodes [0b00100000, 0b01111011] (.jrCc .nz 0x7B) [] ∧
    decodes [0b00100010, 0b00101110, 0b11011001] (.ldAtNnHL 0xD92E) [] ∧
    decodes [0b00101010, 0b00011110, 0b00111111] (.ldHLAtNn 0x3F1E) [] ∧
    decodes [0b00110010, 0b01110010, 0b00011111] (.ldAtNnA 0x1F72) [] ∧
    decodes [0b00111010, 0b11001011, 0b00011001] (.ldAAtNn 0x19CB) [] ∧
    decodes [0b01001000] (.ldRR .c .b) [] ∧
    decodes [0b01100110] (.ldRAtHL .h) [] ∧
    decodes [0b01110111] (.ldAtHLR .a) [] ∧
    decodes [0b01110110] .halt [] ∧
    decodes [0b10000001] (.addAR .c) [] ∧
    decodes [0b10000110] .addAAtHL [] ∧
    decodes [0b11000110, 0b10010100] (.addAN 0x94) [] := by decide

/-- Words of the main table written out from their encodings (R97). -/
theorem test_decode_main_4 :
    decodes [0b10001011] (.adcAR .e) [] ∧
    decodes [0b10001110] .adcAAtHL [] ∧
    decodes [0b11001110, 0b01001001] (.adcAN 0x49) [] ∧
    decodes [0b10010100] (.subR .h) [] ∧
    decodes [0b10010110] .subAtHL [] ∧
    decodes [0b11010110, 0b00111100] (.subN 0x3C) [] ∧
    decodes [0b10011100] (.sbcAR .h) [] ∧
    decodes [0b10011110] .sbcAAtHL [] ∧
    decodes [0b11011110, 0b10011101] (.sbcAN 0x9D) [] ∧
    decodes [0b10100100] (.andR .h) [] ∧
    decodes [0b10100110] .andAtHL [] ∧
    decodes [0b11100110, 0b01011100] (.andN 0x5C) [] := by decide

/-- Words of the main table written out from their encodings (R97). -/
theorem test_decode_main_5 :
    decodes [0b10101000] (.xorR .b) [] ∧
    decodes [0b10101110] .xorAtHL [] ∧
    decodes [0b11101110, 0b01100000] (.xorN 0x60) [] ∧
    decodes [0b10110010] (.orR .d) [] ∧
    decodes [0b10110110] .orAtHL [] ∧
    decodes [0b11110110, 0b00110001] (.orN 0x31) [] ∧
    decodes [0b10111100] (.cpR .h) [] ∧
    decodes [0b10111110] .cpAtHL [] ∧
    decodes [0b11111110, 0b00100000] (.cpN 0x20) [] ∧
    decodes [0b11000000] (.retCc .nz) [] ∧
    decodes [0b11010001] (.popRp .de) [] ∧
    decodes [0b11111010, 0b11011010, 0b10100000] (.jpCcNn .m 0xA0DA) [] := by decide

/-- Words of the main table written out from their encodings (R97). -/
theorem test_decode_main_6 :
    decodes [0b11000011, 0b11101110, 0b11101000] (.jpNn 0xE8EE) [] ∧
    decodes [0b11010011, 0b10111001] (.outNA 0xB9) [] ∧
    decodes [0b11011011, 0b10011001] (.inAN 0x99) [] ∧
    decodes [0b11100011] .exSPHL [] ∧
    decodes [0b11101011] .exDEHL [] ∧
    decodes [0b11110011] .di [] ∧
    decodes [0b11111011] .ei [] ∧
    decodes [0b11011100, 0b01011100, 0b01111100] (.callCcNn .c 0x7C5C) [] ∧
    decodes [0b11000101] (.pushRp .bc) [] ∧
    decodes [0b11001101, 0b10011001, 0b11111101] (.callNn 0xFD99) [] ∧
    decodes [0b11101111] (.rst 5) [] ∧
    decodes [0b11001001] .ret [] := by decide

/-- Words of the main table written out from their encodings (R97). -/
theorem test_decode_main_7 :
    decodes [0b11011001] .exx [] ∧
    decodes [0b11101001] .jpHL [] ∧
    decodes [0b11111001] .ldSPHL [] := by decide

/-- Words of the CB table written out from their encodings (R98). -/
theorem test_decode_cb_1 :
    decodes [0b11001011, 0b00000101] (.rlcR .l) [] ∧
    decodes [0b11001011, 0b00000110] .rlcAtHL [] ∧
    decodes [0b11001011, 0b00001011] (.rrcR .e) [] ∧
    decodes [0b11001011, 0b00001110] .rrcAtHL [] ∧
    decodes [0b11001011, 0b00010010] (.rlR .d) [] ∧
    decodes [0b11001011, 0b00010110] .rlAtHL [] ∧
    decodes [0b11001011, 0b00011100] (.rrR .h) [] ∧
    decodes [0b11001011, 0b00011110] .rrAtHL [] ∧
    decodes [0b11001011, 0b00100000] (.slaR .b) [] ∧
    decodes [0b11001011, 0b00100110] .slaAtHL [] ∧
    decodes [0b11001011, 0b00101000] (.sraR .b) [] ∧
    decodes [0b11001011, 0b00101110] .sraAtHL [] := by decide

/-- Words of the CB table written out from their encodings (R98). -/
theorem test_decode_cb_2 :
    decodes [0b11001011, 0b00110100] (.sllR .h) [] ∧
    decodes [0b11001011, 0b00110110] .sllAtHL [] ∧
    decodes [0b11001011, 0b00111011] (.srlR .e) [] ∧
    decodes [0b11001011, 0b00111110] .srlAtHL [] ∧
    decodes [0b11001011, 0b01010111] (.bitR 2 .a) [] ∧
    decodes [0b11001011, 0b01101110] (.bitAtHL 5) [] ∧
    decodes [0b11001011, 0b10010011] (.resR 2 .e) [] ∧
    decodes [0b11001011, 0b10110110] (.resAtHL 6) [] ∧
    decodes [0b11001011, 0b11000101] (.setR 0 .l) [] ∧
    decodes [0b11001011, 0b11001110] (.setAtHL 1) [] := by decide

/-- Words of the ED table written out from their encodings (R99). -/
theorem test_decode_ed_1 :
    decodes [0b11101101, 0b01111000] (.inRC .a) [] ∧
    decodes [0b11101101, 0b01110000] .inFC [] ∧
    decodes [0b11101101, 0b01100001] (.outCR .h) [] ∧
    decodes [0b11101101, 0b01110001] .outC0 [] ∧
    decodes [0b11101101, 0b01100010] (.sbcHLRp .hl) [] ∧
    decodes [0b11101101, 0b01101010] (.adcHLRp .hl) [] ∧
    decodes [0b11101101, 0b01100011, 0b11111110, 0b11101001] (.ldAtNnRp .hl 0xE9FE) [] ∧
    decodes [0b11101101, 0b01001011, 0b00101111, 0b10001010] (.ldRpAtNn .bc 0x8A2F) [] ∧
    decodes [0b11101101, 0b01111100] (.neg 7) [] ∧
    decodes [0b11101101, 0b01110101] (.retn 6) [] ∧
    decodes [0b11101101, 0b01001101] .reti [] ∧
    decodes [0b11101101, 0b01000110] (.im0 0) [] := by decide

/-- Words of the ED table written out from their encodings (R99). -/
theorem test_decode_ed_2 :
    decodes [0b11101101, 0b01010110] (.im1 2) [] ∧
    decodes [0b11101101, 0b01111110] (.im2 7) [] ∧
    decodes [0b11101101, 0b01000111] .ldIA [] ∧
    decodes [0b11101101, 0b01001111] .ldRA [] ∧
    decodes [0b11101101, 0b01010111] .ldAI [] ∧
    decodes [0b11101101, 0b01011111] .ldAR [] ∧
    decodes [0b11101101, 0b01100111] .rrd [] ∧
    decodes [0b11101101, 0b01101111] .rld [] ∧
    decodes [0b11101101, 0b01110111] .nopED77 [] ∧
    decodes [0b11101101, 0b01111111] .nopED7F [] ∧
    decodes [0b11101101, 0b10100000] .ldi [] ∧
    decodes [0b11101101, 0b10100001] .cpi [] := by decide

/-- Words of the ED table written out from their encodings (R99). -/
theorem test_decode_ed_3 :
    decodes [0b11101101, 0b10100010] .ini [] ∧
    decodes [0b11101101, 0b10100011] .outi [] ∧
    decodes [0b11101101, 0b10101000] .ldd [] ∧
    decodes [0b11101101, 0b10101001] .cpd [] ∧
    decodes [0b11101101, 0b10101010] .ind [] ∧
    decodes [0b11101101, 0b10101011] .outd [] ∧
    decodes [0b11101101, 0b10110000] .ldir [] ∧
    decodes [0b11101101, 0b10110001] .cpir [] ∧
    decodes [0b11101101, 0b10110010] .inir [] ∧
    decodes [0b11101101, 0b10110011] .otir [] ∧
    decodes [0b11101101, 0b10111000] .lddr [] ∧
    decodes [0b11101101, 0b10111001] .cpdr [] := by decide

/-- Words of the ED table written out from their encodings (R99). -/
theorem test_decode_ed_4 :
    decodes [0b11101101, 0b10111010] .indr [] ∧
    decodes [0b11101101, 0b10111011] .otdr [] ∧
    decodes [0b11101101, 0b00111001] (.nopEDLow 57) [] ∧
    decodes [0b11101101, 0b11100100] (.nopEDHigh 36) [] ∧
    decodes [0b11101101, 0b10011100] (.nopEDMid 28) [] := by decide

/-- Words of the DD and FD tables written out from their encodings (R100). -/
theorem test_decode_xy_1 :
    decodes [0b11111101, 0b00001001] (.addXYRp .iy .bc) [] ∧
    decodes [0b11111101, 0b00100001, 0b10110101, 0b01010110] (.ldXYNn .iy 0x56B5) [] ∧
    decodes [0b11011101, 0b00100010, 0b11111100, 0b00011110] (.ldAtNnXY .ix 0x1EFC) [] ∧
    decodes [0b11011101, 0b00100011] (.incXY .ix) [] ∧
    decodes [0b11111101, 0b00100100] (.incXYH .iy .hi) [] ∧
    decodes [0b11011101, 0b00101101] (.decXYH .ix .lo) [] ∧
    decodes [0b11111101, 0b00101110, 0b00101001] (.ldXYHN .iy .lo 0x29) [] ∧
    decodes [0b11011101, 0b00101010, 0b11100101, 0b11001101] (.ldXYAtNn .ix 0xCDE5) [] ∧
    decodes [0b11111101, 0b00101011] (.decXY .iy) [] ∧
    decodes [0b11011101, 0b00110100, 0b11011100] (.incAtXY .ix 0xDC) [] ∧
    decodes [0b11111101, 0b00110101, 0b11010100] (.decAtXY .iy 0xD4) [] ∧
    decodes [0b11111101, 0b00110110, 0b11000010, 0b01110110] (.ldAtXYN .iy 0xC2 0x76) [] := by decide

/-- Words of the DD and FD tables written out from their encodings (R100). -/
theorem test_decode_xy_2 :
    decodes [0b11011101, 0b01001100] (.ldRXYH .ix .c .hi) [] ∧
    decodes [0b11011101, 0b01100011] (.ldXYHR .ix .hi .e) [] ∧
    decodes [0b11011101, 0b01101101] (.ldXYHXYH .ix .lo .lo) [] ∧
    decodes [0b11011101, 0b01001110, 0b11010110] (.ldRAtXY .ix .c 0xD6) [] ∧
    decodes [0b11111101, 0b01110100, 0b10100011] (.ldAtXYR .iy .h 0xA3) [] ∧
    decodes [0b11011101, 0b10000100] (.addAXYH .ix .hi) [] ∧
    decodes [0b11111101, 0b10000110, 0b11001000] (.addAAtXY .iy 0xC8) [] ∧
    decodes [0b11111101, 0b10001101] (.adcAXYH .iy .lo) [] ∧
    decodes [0b11111101, 0b10001110, 0b00110101] (.adcAAtXY .iy 0x35) [] ∧
    decodes [0b11111101, 0b10010101] (.subXYH .iy .lo) [] ∧
    decodes [0b11011101, 0b10010110, 0b01100001] (.subAtXY .ix 0x61) [] ∧
    decodes [0b11011101, 0b10011100] (.sbcAXYH .ix .hi) [] := by decide

/-- Words of the DD and FD tables written out from their encodings (R100). -/
theorem test_decode_xy_3 :
    decodes [0b11111101, 0b10011110, 0b01010011] (.sbcAAtXY .iy 0x53) [] ∧
    decodes [0b11011101, 0b10100101] (.andXYH .ix .lo) [] ∧
    decodes [0b11011101, 0b10100110, 0b00110100] (.andAtXY .ix 0x34) [] ∧
    decodes [0b11011101, 0b10101100] (.xorXYH .ix .hi) [] ∧
    decodes [0b11011101, 0b10101110, 0b10111010] (.xorAtXY .ix 0xBA) [] ∧
    decodes [0b11011101, 0b10110100] (.orXYH .ix .hi) [] ∧
    decodes [0b11011101, 0b10110110, 0b11000000] (.orAtXY .ix 0xC0) [] ∧
    decodes [0b11011101, 0b10111101] (.cpXYH .ix .lo) [] ∧
    decodes [0b11111101, 0b10111110, 0b10111010] (.cpAtXY .iy 0xBA) [] ∧
    decodes [0b11111101, 0b11100001] (.popXY .iy) [] ∧
    decodes [0b11011101, 0b11100011] (.exSPXY .ix) [] ∧
    decodes [0b11011101, 0b11100101] (.pushXY .ix) [] := by decide

/-- Words of the DD and FD tables written out from their encodings (R100). -/
theorem test_decode_xy_4 :
    decodes [0b11111101, 0b11101001] (.jpXY .iy) [] ∧
    decodes [0b11111101, 0b11111001] (.ldSPXY .iy) [] ∧
    decodes [0b11111101, 0b01000111] (.lonePrefix .iy) [0b01000111] := by decide

/-- Words of the DDCB and FDCB tables written out from their encodings (R101). -/
theorem test_decode_xycb_1 :
    decodes [0b11111101, 0b11001011, 0b10011111, 0b00000110] (.rlcAtXY .iy 0x9F) [] ∧
    decodes [0b11011101, 0b11001011, 0b01001001, 0b00000000] (.rlcAtXYR .ix 0x49 .b) [] ∧
    decodes [0b11111101, 0b11001011, 0b10000111, 0b00001110] (.rrcAtXY .iy 0x87) [] ∧
    decodes [0b11111101, 0b11001011, 0b01010010, 0b00001100] (.rrcAtXYR .iy 0x52 .h) [] ∧
    decodes [0b11011101, 0b11001011, 0b01101001, 0b00010110] (.rlAtXY .ix 0x69) [] ∧
    decodes [0b11111101, 0b11001011, 0b01001011, 0b00010101] (.rlAtXYR .iy 0x4B .l) [] ∧
    decodes [0b11011101, 0b11001011, 0b10011000, 0b00011110] (.rrAtXY .ix 0x98) [] ∧
    decodes [0b11011101, 0b11001011, 0b10000101, 0b00011100] (.rrAtXYR .ix 0x85 .h) [] ∧
    decodes [0b11111101, 0b11001011, 0b01010101, 0b00100110] (.slaAtXY .iy 0x55) [] ∧
    decodes [0b11111101, 0b11001011, 0b01110010, 0b00100100] (.slaAtXYR .iy 0x72 .h) [] ∧
    decodes [0b11111101, 0b11001011, 0b01110010, 0b00101110] (.sraAtXY .iy 0x72) [] ∧
    decodes [0b11011101, 0b11001011, 0b01111010, 0b00101111] (.sraAtXYR .ix 0x7A .a) [] := by decide

/-- Words of the DDCB and FDCB tables written out from their encodings (R101). -/
theorem test_decode_xycb_2 :
    decodes [0b11111101, 0b11001011, 0b01110100, 0b00110110] (.sllAtXY .iy 0x74) [] ∧
    decodes [0b11011101, 0b11001011, 0b11111100, 0b00110010] (.sllAtXYR .ix 0xFC .d) [] ∧
    decodes [0b11011101, 0b11001011, 0b00001110, 0b00111110] (.srlAtXY .ix 0x0E) [] ∧
    decodes [0b11111101, 0b11001011, 0b11110001, 0b00111010] (.srlAtXYR .iy 0xF1 .d) [] ∧
    decodes [0b11011101, 0b11001011, 0b10110000, 0b01111101] (.bitAtXY .ix 0xB0 7 5) [] ∧
    decodes [0b11111101, 0b11001011, 0b00101001, 0b10011110] (.resAtXY .iy 0x29 3) [] ∧
    decodes [0b11011101, 0b11001011, 0b01110100, 0b10111001] (.resAtXYR .ix 0x74 7 .c) [] ∧
    decodes [0b11111101, 0b11001011, 0b01101000, 0b11111110] (.setAtXY .iy 0x68 7) [] ∧
    decodes [0b11011101, 0b11001011, 0b11110101, 0b11101111] (.setAtXYR .ix 0xF5 5 .a) [] := by decide

/-- Truncated input is rejected by name: a prefix with nothing after it, an operand that is missing (log 17). -/
theorem test_decode_truncated :
    truncated [] ∧ truncated [0xCB] ∧ truncated [0x21, 0x34] ∧
    truncated [0xDD] := by decide

/-- The table's numbering: the first byte is the most significant (log 8). -/
theorem test_decodeTableWord :
    decodeTableWord 24 0x213412 = some (.ldRpNn .hl 0x1234) ∧ decodeTableWord 8 0x78 = some (.ldRR .a .b) ∧
    decodeTableWord 32 0xDDCB0280 = some (.resAtXYR .ix 2 0 .b) := by decide

/-- An instruction placed by its table word is the one the next step runs. -/
theorem test_withFetchWord :
    (State.reset.withFetchWord 24 0x310040).fetchInstr = .ldRpNn .sp 0x4000 ∧
    (after (State.reset.withFetchWord 24 0x310040)).sp = 0x4000 := by decide

/-! ## Single steps: the end states of spec/95_test_vectors.md -/

/-- V41.3 and V41.5: a store into ROM is dropped; LD SP,nn. -/
theorem test_load_rom :
    let t := after { code [0x36, 0xAB] with main := { RegSet.zero with h := 0x20 } }
    t.readByte 0x2000 = 0 ∧ clock t = (0x8002, 1, 10) ∧ (after (code [0x31, 0x00, 0xC0])).sp = 0xC000 := by decide

/-- V41.4: LD (nn),HL stores low byte first. -/
theorem test_store_word :
    let t := after { code [0x22, 0x00, 0x90] with main := { RegSet.zero with h := 0x12, l := 0x34 } }
    t.readByte 0x9000 = 0x34 ∧ t.readByte 0x9001 = 0x12 ∧ clock t = (0x8003, 1, 16) := by decide

/-- V41.6 and V41.7: PUSH BC, POP AF. -/
theorem test_push_pop :
    let t := after { code [0xC5] with sp := 0xC000, main := { RegSet.zero with b := 0x12, c := 0x34 } }
    let u := after { placed (code [0xF1]) 0xBFFE [0xFF, 0x01] with sp := 0xBFFE }
    t.readByte 0xBFFE = 0x34 ∧ t.readByte 0xBFFF = 0x12 ∧ t.sp = 0xBFFE ∧ clock t = (0x8001, 1, 11) ∧
    u.main.a = 0x01 ∧ u.main.f = 0xFF ∧ u.sp = 0xC000 := by decide

/-- V41.8, V41.9 and V41.11: LD A,I; LD A,R; LD R,A. -/
theorem test_special_registers :
    let t := after { withAF (code [0xED, 0x57]) 0 1 with i := 0x80, iff := true, t := 1000 }
    let u := after { code [0xED, 0x5F] with r := 0x80 }
    t.main.a = 0x80 ∧ t.main.f = 0x85 ∧ clock t = (0x8002, 2, 1009) ∧ u.main.a = 0x82 ∧ u.main.f = 0x80 ∧
    (after (withAF (code [0xED, 0x4F]) 0x85 0)).r = 0x85 := by decide

/-- V41.13 and V41.14: the index displacement wraps; H is H, not IXh. -/
theorem test_load_indexed :
    let t := after { placed (code [0xDD, 0x7E, 0x05]) 0x0003 [0x42] with ixh := 0xFF, ixl := 0xFE }
    let u := after { placed (code [0xDD, 0x66, 0x01]) 0x9001 [0x5A] with ixh := 0x90 }
    t.main.a = 0x42 ∧ clock t = (0x8003, 2, 19) ∧ u.main.h = 0x5A ∧ u.ixh = 0x90 := by decide

/-- V41.16 and V41.19: LD IXh,IXl; a word at 0xFFFF takes its high byte from 0. -/
theorem test_load_halves_and_wrap :
    let t := after { code [0xDD, 0x65] with ixh := 0x12, ixl := 0xAB }
    let u := after (placed (placed (code [0xFD, 0x2A, 0xFF, 0xFF]) 0xFFFF [0x11]) 0 [0x22])
    t.xy .ix = 0xABAB ∧ clock t = (0x8002, 2, 8) ∧ u.xy .iy = 0x2211 ∧ clock u = (0x8004, 2, 20) := by decide

/-- V42.1, V42.2, V42.4 and S1: ADD, ADC, SBC. -/
theorem test_add_sub :
    let t := after (withAF (code [0xC6, 0x01]) 0x7F 0)
    let u := after (withAF (code [0x88]) 0xFF 1)
    let v := after (withAF (code [0x9F]) 0x55 1)
    t.main.a = 0x80 ∧ t.main.f = 0x94 ∧ u.main.a = 0 ∧ u.main.f = 0x51 ∧ v.main.a = 0xFF ∧ v.main.f = 0xBB ∧
    (after (withAF (code [0xC6, 0xFF]) 0xFF 0)).main.f = 0xB9 := by decide

/-- V42.5, V42.6 and V42.7: AND, XOR, OR. -/
theorem test_logic :
    (after (withAF (code [0xE6, 0x0F]) 0xF0 0)).main.f = 0x54 ∧ (after (withAF (code [0xAF]) 0xAF 0)).main.f = 0x44 ∧
    (after (withAF (code [0xF6, 0x81]) 0 0)).main.f = 0x84 := by decide

/-- V42.3, V42.8 and V42.9: SUB; CP takes bits 5 and 3 from the operand and keeps A. -/
theorem test_compare :
    let t := after (withAF (code [0xFE, 0x08]) 0x40 0)
    t.main.f = 0x1A ∧ t.main.a = 0x40 ∧ (after (withAF (code [0xD6, 0x01]) 0 0)).main.f = 0xBB ∧
    (after { code [0xB8] with main := { RegSet.zero with a := 0x80, b := 0x7F } }).main.f = 0x3E := by decide

/-- V42.11 to V42.15: the 16-bit sums and differences. -/
theorem test_word_arithmetic :
    let t := after { code [0x19] with main := { RegSet.zero with f := 0xC4, h := 0x0F, l := 0xFF, e := 1 } }
    let u := after { code [0xED, 0x4A] with main := { RegSet.zero with f := 1, h := 0x7F, l := 0xFF } }
    let v := after { code [0xED, 0x52] with main := { RegSet.zero with h := 0x80, e := 1 } }
    let w := after { code [0xDD, 0x29] with ixh := 0x80 }
    t.hl = 0x1000 ∧ t.main.f = 0xD4 ∧ u.hl = 0x8000 ∧ u.main.f = 0x94 ∧ v.hl = 0x7FFF ∧ v.main.f = 0x3E ∧
    w.xy .ix = 0 ∧ w.main.f = 1 := by decide

/-- V42.16 to V42.18: DAA after an addition, after a subtraction, with a decimal carry. -/
theorem test_daa :
    daa 0x3C 0x00 = (0x42, 0x14) ∧ daa 0x2D 0x12 = (0x27, 0x26) ∧ daa 0x9A 0x00 = (0x00, 0x55) ∧
    (after (withAF (code [0x27]) 0x2D 0x12)).main.a = 0x27 := by decide

/-- V42.19 to V42.24: CPL, NEG and its duplicate, SCF, CCF. -/
theorem test_adjustments :
    let t := after (withAF (code [0x2F]) 0x5A 0)
    let u := after (withAF (code [0xED, 0x4C]) 1 0)
    t.main.a = 0xA5 ∧ t.main.f = 0x32 ∧ u.main.a = 0xFF ∧ u.main.f = 0xBB ∧
    (after (withAF (code [0xED, 0x44]) 0x80 0)).main.f = 0x87 ∧ (after (withAF (code [0x37]) 0x28 0)).main.f = 0x29 ∧
    (after (withAF (code [0x3F]) 0 1)).main.f = 0x10 := by decide

/-- V43.1, V43.2 and V43.4: INC and DEC keep C; DEC (HL) on ROM stores nothing and sets F. -/
theorem test_inc_dec :
    let t := after (withAF (code [0x3C]) 0x7F 1)
    let u := after { code [0x05] with main := { RegSet.zero with b := 0x80 } }
    let v := after { code [0x35] with main := { RegSet.zero with h := 0x10 } }
    t.main.a = 0x80 ∧ t.main.f = 0x95 ∧ u.main.b = 0x7F ∧ u.main.f = 0x3E ∧ v.readByte 0x1000 = 0 ∧ v.main.f = 0xBA := by
  decide

/-- V43.5, V43.6 and V43.8: an indexed INC, INC IXh without carry into IXl, DEC SP. -/
theorem test_inc_dec_indexed :
    let t := after { placed (code [0xDD, 0x34, 0x80]) 0x9000 [0x0F] with ixh := 0x90, ixl := 0x80 }
    let u := after { code [0xDD, 0x24] with ixh := 0xFF }
    t.readByte 0x9000 = 0x10 ∧ t.main.f = 0x10 ∧ clock t = (0x8003, 2, 23) ∧ u.xy .ix = 0 ∧ u.main.f = 0x50 ∧
    (after (code [0x3B])).sp = 0xFFFF := by decide

/-- V44.1 to V44.4: the accumulator rotates. -/
theorem test_accumulator_rotates :
    rota .rlc 0x81 0 = (0x03, 0x01) ∧ rota .rrc 0x01 0xC4 = (0x80, 0xC5) ∧ rota .rl 0x80 0 = (0x00, 0x01) ∧
    rota .rr 0x01 1 = (0x80, 0x01) ∧ (after (withAF (code [0x0F]) 0x01 0xC4)).main.f = 0xC5 := by decide

/-- V44.5 to V44.10: the eight kinds. -/
theorem test_rotates :
    rot .rlc 0x80 false = (0x01, 0x01) ∧ rot .rr 0x01 false = (0x00, 0x45) ∧ rot .sla 0x80 false = (0x00, 0x45) ∧
    rot .sra 0x81 false = (0xC0, 0x85) ∧ rot .sll 0x80 false = (0x01, 0x01) ∧ rot .srl 0x01 false = (0x00, 0x45) ∧
    (after { placed (code [0xCB, 0x1E]) 0x9000 [0x01] with main := { RegSet.zero with h := 0x90 } }).main.f = 0x45 := by
  decide

/-- V44.11 to V44.15: BIT, its bits 5 and 3 from the byte or from the address. -/
theorem test_bit :
    let t := after { placed (code [0xDD, 0xCB, 0x00, 0x46]) 0x2800 [0x00] with ixh := 0x28 }
    t.main.f = 0x7C ∧ clock t = (0x8004, 2, 20) ∧ (after (withAF (code [0xCB, 0x7F]) 0x80 0)).main.f = 0x90 ∧
    (after { code [0xCB, 0x40] with main := { RegSet.zero with b := 0x28, f := 1 } }).main.f = 0x7D := by decide

/-- V44.16 and V44.17: the register copy in RAM and in ROM. -/
theorem test_register_copy :
    let t := after { placed (code [0xDD, 0xCB, 0x01, 0x80]) 0x9001 [0xFF] with ixh := 0x90 }
    let u := after { placed (code [0xDD, 0xCB, 0x00, 0x07]) 0x1000 [0x80] with ixh := 0x10 }
    t.main.b = 0xFE ∧ t.readByte 0x9001 = 0xFE ∧ clock t = (0x8004, 2, 23) ∧ u.main.a = 0x01 ∧ u.main.f = 0x01 ∧
    u.readByte 0x1000 = 0x80 := by decide

/-- V44.19 and V44.20: RLD and RRD. -/
theorem test_digit_rotates :
    let t := after { placed (code [0xED, 0x6F]) 0x9000 [0x34] with main := { RegSet.zero with a := 0x12, h := 0x90 } }
    let u := after { placed (code [0xED, 0x67]) 0x9000 [0x34] with main := { RegSet.zero with a := 0x12, h := 0x90 } }
    t.main.a = 0x13 ∧ t.readByte 0x9000 = 0x42 ∧ t.main.f = 0 ∧ u.main.a = 0x14 ∧ u.readByte 0x9000 = 0x23 ∧
    u.main.f = 0x04 := by decide

/-- The registers of the block vectors: A, BC, DE, HL. -/
def block (a : Byte) (bc de hl : Word) : RegSet :=
  (((({ RegSet.zero with a := a }).setBC bc).setDE de).setHL hl)

/-- V45.1 and V45.3: LDI; one step of LDIR that goes again. -/
theorem test_block_transfer :
    let t := after { placed (code [0xED, 0xA0]) 0x9000 [0x3B] with main := block 0 2 0xA000 0x9000 }
    let u := after { code [0xED, 0xB0] with main := block 0 2 0xA000 0x9000 }
    t.main = { block 0 1 0xA001 0x9001 with f := 0x2C } ∧ t.readByte 0xA000 = 0x3B ∧ clock t = (0x8002, 2, 16) ∧
    u.main = { block 0 1 0xA001 0x9001 with f := 0x04 } ∧ clock u = (0x8000, 2, 21) := by decide

/-- V45.5 and V45.6: CPI on a match and on a half borrow. -/
theorem test_block_compare :
    let t := after { placed (code [0xED, 0xA1]) 0x9000 [0x3B] with main := block 0x3B 1 0 0x9000 }
    let u := after { placed (code [0xED, 0xA1]) 0x9000 [0x01] with main := { block 0x10 5 0 0x9000 with f := 1 } }
    t.main = { block 0x3B 0 0 0x9001 with f := 0x42 } ∧ u.main = { block 0x10 4 0 0x9001 with f := 0x3F } := by decide

/-- V45.9 and V45.10: INI and IND with no read capability. -/
theorem test_block_in :
    let t := after { code [0xED, 0xA2] with main := block 0 0x0210 0 0x9000 }
    let u := after { code [0xED, 0xAA] with main := block 0 0x0100 0 0x9000 }
    t.main = { block 0 0x0110 0 0x9001 with f := 0x13 } ∧ t.readByte 0x9000 = 0xFF ∧
    u.main = { block 0 0 0 0x8FFF with f := 0x57 } ∧ clock u = (0x8002, 2, 16) := by decide

/-- V45.11 and V45.12: OUTI and OUTD, the port formed with B after its decrement. -/
theorem test_block_out :
    let t := after { placed (code [0xED, 0xA3]) 0x9000 [0x41] with main := block 0 0x0210 0 0x9000 }
    let u := after { placed (code [0xED, 0xAB]) 0x90FF [0x80] with main := block 0 0x0110 0 0x90FF }
    t.main = { block 0 0x0110 0 0x9001 with f := 0x04 } ∧ t.portWrites = [⟨0x0110, 0x41⟩] ∧
    u.main = { block 0 0x0010 0 0x90FE with f := 0x57 } ∧ u.portWrites = [⟨0x0010, 0x80⟩] := by decide

/-- V45.14 to V45.16: IN A,(n); IN A,(C); IN B,(C) with a capability that answers 0. -/
theorem test_in :
    let t := after (withAF (code [0xDB, 0xFE]) 0x12 0)
    let u := after { code [0xED, 0x78] with main := { RegSet.zero with c := 0xFE, f := 1 } }
    let v := after { code [0xED, 0x40] with main := { RegSet.zero with c := 0xFE }, readPort := some [0x00, 0x07] }
    t.main.a = 0xFF ∧ t.main.f = 0 ∧ clock t = (0x8002, 1, 11) ∧ u.main.f = 0xAD ∧ v.main.f = 0x44 ∧
    v.readPort = some [0x07] ∧ v.portReads = 1 := by decide

/-- V45.18 to V45.20: OUT (n),A; OUT (C),A; OUT (C),0. -/
theorem test_out :
    (after (withAF (code [0xD3, 0xFE]) 0x07 0)).portWrites = [⟨0x07FE, 0x07⟩] ∧
    (after { code [0xED, 0x79] with main := block 0xAA 0x1234 0 0 }).portWrites = [⟨0x1234, 0xAA⟩] ∧
    (after { code [0xED, 0x71] with main := block 0xAA 0x1234 0 0 }).portWrites = [⟨0x1234, 0⟩] := by decide

/-- V46.2, V46.3, V46.6 and V46.7: conditional and relative jumps. -/
theorem test_jumps :
    clock (after (withAF (code [0xC2, 0x34, 0x12]) 0 0x40)) = (0x8003, 1, 10) ∧
    clock (after (withAF (code [0xFA, 0x34, 0x12]) 0 0x80)) = (0x1234, 1, 10) ∧
    clock (after (code [0x18, 0x80])) = (0x7F82, 1, 12) ∧
    clock (after { placed State.reset 0xFFFE [0x18, 0x01] with pc := 0xFFFE }) = (0x0001, 1, 12) := by decide

/-- V46.8, V46.9 and V46.12, V46.13: JR cc and DJNZ either way. -/
theorem test_relative_either_way :
    clock (after (withAF (code [0x30, 0x05]) 0 1)) = (0x8002, 1, 7) ∧
    clock (after (withAF (code [0x28, 0x05]) 0 0x40)) = (0x8007, 1, 12) ∧
    clock (after { code [0x10, 0xFE] with main := { RegSet.zero with b := 1 } }) = (0x8002, 1, 8) ∧
    clock (after (code [0x10, 0xFE])) = (0x8000, 1, 13) ∧ (after (code [0x10, 0xFE])).main.b = 0xFF := by decide

/-- V46.15 and V46.16: a call whose pushed low byte lands in ROM; a call not taken. -/
theorem test_call :
    let t := after { code [0xCD, 0x00, 0x90] with sp := 0x4001 }
    t.sp = 0x3FFF ∧ t.readByte 0x3FFF = 0 ∧ t.readByte 0x4000 = 0x80 ∧ clock t = (0x9000, 1, 17) ∧
    clock (after { code [0xCC, 0x00, 0x90] with sp := 0xC000 }) = (0x8003, 1, 10) := by decide

/-- V46.17 to V46.21: returns and RST. -/
theorem test_return_rst :
    clock (after { placed (code [0xC9]) 0xBFFE [0x03, 0x80] with sp := 0xBFFE }) = (0x8003, 1, 10) ∧
    clock (after { placed (code [0xE0]) 0xBFFE [0x03, 0x80] with sp := 0xBFFE }) = (0x8003, 1, 11) ∧
    clock (after { code [0xE8] with sp := 0xBFFE }) = (0x8001, 1, 5) ∧
    clock (after { code [0xFF] with sp := 0xC000 }) = (0x0038, 1, 11) ∧ (after (code [0xCF])).readByte 0xFFFE = 1 := by decide

/-- V47.1 and V47.3: EX AF,AF′ and EXX. -/
theorem test_exchange :
    let t := after { withAF (code [0x08]) 0x12 0x34 with shadow := { RegSet.zero with a := 0x56, f := 0x78 } }
    let u := after { code [0xD9] with main := block 1 0x0102 0x0304 0x0506, shadow := block 2 0x0A0B 0x0C0D 0x0E0F }
    t.main.af = 0x5678 ∧ t.shadow.af = 0x1234 ∧ u.main = block 1 0x0A0B 0x0C0D 0x0E0F ∧
    u.shadow = block 2 0x0102 0x0304 0x0506 := by decide

/-- V47.2 and V47.4: EX DE,HL and EX (SP),HL. -/
theorem test_exchange_stack :
    let t := after { placed (code [0xE3]) 0xC000 [0xCD, 0xAB] with sp := 0xC000, main := block 0 0 0 0x1234 }
    (after { code [0xEB] with main := block 0 0 0x1111 0x2222 }).main = block 0 0 0x2222 0x1111 ∧ t.hl = 0xABCD ∧
    t.readByte 0xC000 = 0x34 ∧ t.readByte 0xC001 = 0x12 ∧ clock t = (0x8001, 1, 19) := by decide

/-- V48.1 and V48.3: the lone prefix is its own instruction; NOP at 0xFFFF. -/
theorem test_lone_prefix_and_nop :
    clock (after (code [0xDD, 0xEB])) = (0x8001, 1, 4) ∧ (after (code [0xDD, 0xEB])).last = .lonePrefix ∧
    clock (after { State.reset with pc := 0xFFFF }) = (0, 1, 4) := by decide

/-- V48.4 to V48.6: HALT. -/
theorem test_halt :
    clock (after { code [0x76] with t := 69888 }) = (0x8000, 1, 69892) ∧
    clock (after { code [0x76] with iff := true, t := 69880 }) = (0x8000, 1, 69884) ∧
    clock (after { code [0x76] with iff := true, sp := 0xC000, t := 69886 }) = (0x0038, 2, 69903) ∧
    (after { code [0x76] with iff := true, sp := 0xC000, t := 69886 }).readWord 0xBFFE = 0x8001 := by decide

/-- V48.7, V48.8, V48.10 to V48.12: DI, EI, IM. -/
theorem test_interrupt_control :
    (after { code [0xF3] with iff := true }).iff = false ∧ (after (code [0xFB])).iff = true ∧
    clock (after (code [0xFB])) = (0x8001, 1, 4) ∧ (after (code [0xED, 0x5E])).im = .im2 ∧
    (after (code [0xED, 0x4E])).im = .im0 ∧ (after { code [0xED, 0x76] with im := .im0 }).im = .im1 := by decide

/-- V48.13, V48.14 and V48.17: RETN, RETI, an ED no-op. -/
theorem test_retn_reti_edNoOp :
    let t := after { placed (code [0xED, 0x4D]) 0xBFFE [0x03, 0x80] with sp := 0xBFFE, iff := true, t := 1000 }
    t.iff = true ∧ clock t = (0x8003, 2, 1014) ∧
    clock (after { placed (code [0xED, 0x45]) 0xBFFE [0x03, 0x80] with sp := 0xBFFE }) = (0x8003, 2, 14) ∧
    clock (after { code [0xED, 0xFF] with r := 0xFF }) = (0x8002, 0x81, 8) := by decide

/-- V60.1 and V60.4: acceptance in mode 1 and in mode 2. -/
theorem test_interrupt :
    let t := after { code [0x00] with iff := true, sp := 0xC000 }
    let u := after { placed (code [0x00]) 0x90FF [0x00, 0xA0] with iff := true, im := .im2, i := 0x90, sp := 0xC000 }
    clock t = (0x0038, 2, 17) ∧ t.readWord 0xBFFE = 0x8001 ∧ t.iff = false ∧ clock u = (0xA000, 2, 23) := by decide

/-- V60.2, V60.3, V60.6 and V60.9: the request window, INT_ACTIVE = 0, the deferral. -/
theorem test_interrupt_window :
    clock (after { code [0x00] with iff := true, t := 100 }) = (0x8001, 1, 104) ∧
    clock (after { code [0x00] with iff := true, t := 69887 }) = (0x0038, 2, 69904) ∧
    clock (after { code [0x00] with iff := true, cfg := { Config.example48k with intActive := 0 } }) = (0x8001, 1, 4) ∧
    clock (after { code [0xDD, 0x00] with iff := true }) = (0x8001, 1, 4) := by decide

/-- V60.10: LDIR interrupted between two iterations. -/
theorem test_interrupted_ldir :
    let t := after { code [0xED, 0xB0] with iff := true, sp := 0xC000, main := block 0 3 0xA000 0x9000 }
    clock t = (0x0038, 3, 34) ∧ t.readWord 0xBFFE = 0x8000 ∧ t.bc = 2 := by decide

/-! ## The host interface -/

/-- Construction with a pair and one of its halves: pair names first (R390); clamping (R37). -/
theorem test_construct :
    (match construct [] [("B", 5), ("BC", 0x11234), ("^A", -1)] ⟨some 7, some 3, some (-4)⟩ Config.example48k with
      | .ok s => decide (s.bc = 0x0534 ∧ s.shadow.a = 0xFF ∧ s.im = .im1 ∧ s.iff = true ∧ s.t = 0)
      | .error _ => false) = true := by decide

/-- An unknown name is an error, of reading and of writing (R37, R38). -/
theorem test_unknown_register :
    (match State.reset.readByName "Q" with
      | .ok _ => false
      | .error e => decide (e = .unknownRegister "Q")) = true ∧
    lookupName "^HL" = some (.pair .shl) := by decide

/-- S8: memory all NOP, `run(start=0)` with no stop: one instruction. -/
theorem test_run_one :
    (match run noTrace 5 (some 0) none State.reset with
      | .returned s => decide (clock s = (1, 1, 4))
      | _ => false) = true := by decide

/-- A stop address that equals the start needs at least one step; a start past 16 bits is taken mod 65536; the fuel ends
(R371, R373). -/
theorem test_run_stop :
    (match run noTrace 5 (some 65538) (some 4) State.reset with
      | .returned s => decide (clock s = (4, 2, 8))
      | _ => false) = true ∧
    (match run noTrace 3 (some 0) (some 0) State.reset with
      | .outOfFuel s => decide (s.pc = 3)
      | _ => false) = true := by decide

/-- A trace callback that stops after the first step (R372). -/
theorem test_run_trace :
    (match run (fun s => (s, .stop)) 5 (some 0) (some 4) State.reset with
      | .returned s => decide (s.pc = 1)
      | _ => false) = true := by decide

/-! ## Witnesses: for every obligation with hypotheses, a state and operands that meet all of them

Each shows the conclusion's subject too where it is one value, so that a clause that could not apply would show. -/

/-- DecodeOfEncode: an operand at each end of its range, and a lone prefix before a byte outside INDEX_SET. -/
theorem test_witness_DecodeOfEncode :
    Instr.wf (.ldXYHN .iy .lo 0xFF) = true ∧ decodes (encode (.ldXYHN .iy .lo 0xFF) ++ [0x00]) (.ldXYHN .iy .lo 0xFF) [0x00] ∧
    Instr.wf (.lonePrefix .ix) = true ∧ (0xDD : Byte) ∉ indexSet ∧
    decodes (encode (.lonePrefix .ix) ++ [0xDD, 0x21]) (.lonePrefix .ix) [0xDD, 0x21] := by decide

/-- StepRunsTheDecodedInstruction: the bytes of a well-formed instruction at PC, here across 0xFFFF. -/
theorem test_witness_StepRuns :
    let s : State := { placed State.reset 0xFFFE [0x21, 0x34, 0x12] with pc := 0xFFFE }
    Instr.wf (.ldRpNn .hl 0x1234) = true ∧
    (∀ k, k < Instr.length (.ldRpNn .hl 0x1234) →
      (encode (.ldRpNn .hl 0x1234))[k]? = some (s.readByte (s.pc + BitVec.ofNat 16 k))) ∧
    exec (.ldRpNn .hl 0x1234) s = .next (ran (.ldRpNn .hl 0x1234) s) ∧ (after s).main.h = 0x12 := by
  refine ⟨by decide, by decide, rfl, by decide⟩

/-- The third hypothesis, for an instruction that is no lone prefix and for a lone prefix. -/
theorem test_witness_StepRuns_prefix :
    (∀ x, Instr.ldRpNn .hl 0x1234 = .lonePrefix x → (code [0x21, 0x34, 0x12]).readByte 0x8001 ∉ indexSet) ∧
    (∀ x, Instr.lonePrefix .ix = .lonePrefix x → (code [0xDD, 0xED]).readByte 0x8001 ∉ indexSet) ∧
    (∀ k, k < 1 → (encode (.lonePrefix .ix))[k]? =
      some ((code [0xDD, 0xED]).readByte ((code [0xDD, 0xED]).pc + BitVec.ofNat 16 k))) := by
  exact ⟨fun _ h => (nomatch h), fun _ _ => (by decide), by decide⟩

/-- StepKeepsInv: a state that is halted on a HALT. -/
theorem test_witness_StepKeepsInv_halted :
    let s : State := { code [0x76] with last := .halted }
    s.Inv ∧ step s = .next (after s) ∧ (after s).last = .halted :=
  ⟨⟨by decide, by decide, by decide, by decide⟩, rfl, by decide⟩

/-- StepKeepsInv: a state right after EI. -/
theorem test_witness_StepKeepsInv_ei :
    let s : State := { code [0xFB] with last := .ei, iff := true }
    s.Inv ∧ step s = .next (after s) ∧ (after s).last = .ei :=
  ⟨⟨by decide, by decide, by decide, by decide⟩, rfl, by decide⟩

/-- RomNeverChanges: a store to the last ROM byte, and an acceptance that pushes into it. -/
theorem test_witness_RomNeverChanges :
    let s : State := { code [0x77] with main := { RegSet.zero with a := 0x55, h := 0x3F, l := 0xFF }, iff := true, sp := 0x4001 }
    s.mem.wf = true ∧ exec (.ldAtHLR .a) s = .next (ran (.ldAtHLR .a) s) ∧ step s = .next (after s) ∧
    (0x3FFF : Word).toNat ≤ 0x3FFF ∧ (after s).readByte 0x3FFF = s.readByte 0x3FFF ∧ (after s).readByte 0x4000 = 0x80 := by
  refine ⟨by decide, rfl, rfl, by decide, by decide, by decide⟩

/-- The same store one address higher changes RAM. -/
theorem test_witness_ram_boundary :
    (ran (.ldAtHLR .a) { code [0x77] with main := { RegSet.zero with a := 0x55, h := 0x40 } }).readByte 0x4000 = 0x55 := by
  decide

/-- TimeAdvances: the least and the most an instruction takes, and a step with an acceptance in mode 2. -/
theorem test_witness_TimeAdvances :
    exec .nop State.reset = .next (ran .nop State.reset) ∧ (ran .nop State.reset).t = 4 ∧
    (ran (.incAtXY .ix 0) State.reset).t = 23 ∧
    (after { code [0xDD, 0x34, 0x00] with iff := true, im := .im2 }).t = 42 := by
  refine ⟨rfl, by decide, by decide, by decide⟩

/-- OnlyTheNamedInstructionsWrite: for each clause an instruction it speaks of, next to one that it leaves out and that
does write. -/
theorem test_witness_OnlyTheNamed :
    let s : State := { code [] with i := 7, sp := 0xC000, main := block 9 0x1234 0 0, shadow := block 5 0 0 0 }
    exec .ldAI s = .next (ran .ldAI s) ∧ (ran .ldAI s).i = 7 ∧ (ran .ldIA s).i = 9 ∧
    (ran .ei s).im = .im1 ∧ (ran (.im2 3) s).im = .im2 ∧
    (ran (.retn 0) s).iff = false ∧ (ran .ei s).iff = true ∧
    (ran .exDEHL s).shadow = s.shadow ∧ (ran .exAfAf s).shadow.a = 9 := by
  refine ⟨rfl, by decide, by decide, by decide, by decide, by decide, by decide, by decide, by decide⟩

/-- The clauses on SP, IX and IY, and the ports. -/
theorem test_witness_OnlyTheNamed_more :
    let s : State := { code [] with sp := 0xC000, readPort := some [1, 2], main := block 9 0x1234 0 0 }
    Instr.mayWriteSP (.ldRpNn .hl 1) = false ∧ (ran (.ldRpNn .hl 1) s).sp = 0xC000 ∧ (ran (.ldRpNn .sp 1) s).sp = 1 ∧
    Instr.mayWriteXY (.jpXY .ix) = false ∧ (ran (.jpXY .ix) s).xy .ix = 0 ∧ (ran (.incXY .ix) s).xy .ix = 1 ∧
    Instr.readsPort .outC0 = false ∧ (ran .outC0 s).portReads = 0 ∧ (ran .inFC s).portReads = 1 ∧
    Instr.writesPort .inFC = false ∧ (ran .inFC s).portWrites = [] ∧ (ran .outC0 s).portWrites = [⟨0x1234, 0⟩] := by decide

/-- OtherInstructionsLeaveF: POP of another pair leaves F, POP AF does not; EX AF,AF′. -/
theorem test_witness_OtherInstructionsLeaveF :
    let s : State := placed { code [] with sp := 0xC000, main := { RegSet.zero with f := 0xD7 } } 0xC000 [0x11, 0x22]
    Instr.leavesF (.popRp .bc) = true ∧ exec (.popRp .bc) s = .next (ran (.popRp .bc) s) ∧
    (ran (.popRp .bc) s).main.f = 0xD7 ∧ Instr.leavesF (.popRp .af) = false ∧ (ran (.popRp .af) s).main.f = 0x11 ∧
    exec .exAfAf s = .next (ran .exAfAf s) ∧ (ran .exAfAf s).shadow.f = 0xD7 := by
  refine ⟨by decide, rfl, by decide, by decide, by decide, rfl, by decide⟩

/-- LastAfterAnInstruction: one instruction for each value of LAST, and a HALT that passes itself. -/
theorem test_witness_LastAfter :
    Instr.wf .ei = true ∧ exec .ei State.reset = .next (ran .ei State.reset) ∧ (ran .ei State.reset).last = .ei ∧
    (ran (.lonePrefix .iy) State.reset).last = .lonePrefix ∧ (ran .halt State.reset).last = .halted ∧
    (ran .nop { State.reset with last := .ei }).last = .other ∧
    (ran .halt { State.reset with iff := true, t := 69884 }).last = .other := by
  refine ⟨by decide, rfl, by decide, by decide, by decide, by decide, by decide⟩

/-- RefreshCounter: a prefixed and an unprefixed instruction where the low 7 bits roll over, and an acceptance. -/
theorem test_witness_RefreshCounter :
    let s : State := { code [0x00] with r := 0xFF, iff := true }
    Instr.wf .ldi = true ∧ Instr.ldi ≠ .ldRA ∧ exec .ldi s = .next (ran .ldi s) ∧ Instr.prefixed .ldi = true ∧
    (ran .ldi s).r = 0x81 ∧ Instr.prefixed (.lonePrefix .ix) = false ∧ (ran (.lonePrefix .ix) s).r = 0x80 ∧
    MayAccept s ∧ s.acceptanceCheck.r = 0x80 := by
  refine ⟨by decide, by decide, rfl, by decide, by decide, by decide, by decide, ?_, by decide⟩
  exact ⟨rfl, by decide, by decide, by decide, by decide⟩

/-- SequentialPC: an instruction at the top of memory. -/
theorem test_witness_SequentialPC :
    let s : State := { State.reset with pc := 0xFFFF }
    Instr.wf (.ldRpNn .bc 5) = true ∧ Instr.setsPC (.ldRpNn .bc 5) = false ∧
    exec (.ldRpNn .bc 5) s = .next (ran (.ldRpNn .bc 5) s) ∧ (ran (.ldRpNn .bc 5) s).pc = 2 := by
  refine ⟨by decide, by decide, rfl, by decide⟩

/-- ConfigurationIsNotState: a step from a state with the switches off, and with them on. -/
theorem test_witness_Configuration :
    let s : State := { code [0x10, 0xFE] with main := { RegSet.zero with b := 3 } }
    step s = .next (after s) ∧ (after { s with cfg := { s.cfg with fastDjnz := true } }).pc = (after s).pc := by
  refine ⟨rfl, by decide⟩

/-- PrefixRowsRunTheirTables: the bytes at PC start with each prefix. -/
theorem test_witness_PrefixRows :
    (code [0xCB, 0x41]).fetch 0 = 0xCB ∧ ran .prefixCB (code [0xCB, 0x41]) = ran (.bitR 0 .c) (code [0xCB, 0x41]) ∧
    (code [0xED, 0x44]).fetch 0 = 0xED ∧ ran .prefixED (code [0xED, 0x44]) = ran (.neg 0) (code [0xED, 0x44]) ∧
    (code [0xDD, 0x23]).fetch 0 = 0xDD ∧ ran .prefixDD (code [0xDD, 0x23]) = ran (.incXY .ix) (code [0xDD, 0x23]) ∧
    (code [0xFD, 0x00]).fetch 0 = 0xFD ∧ ran .prefixFD (code [0xFD, 0x00]) = ran (.lonePrefix .iy) (code [0xFD, 0x00]) := by
  decide

/-- PrefixRowsRunTheirTables: DD CB. -/
theorem test_witness_PrefixRows_xycb :
    let s := code [0xDD, 0xCB, 0x02, 0x46]
    s.fetch 0 = XY.code .ix ∧ s.fetch 1 = 0xCB ∧ s.fetchInstr = .bitAtXY .ix 2 0 6 ∧
    ran (.prefixXYCB .ix) s = ran (.bitAtXY .ix 2 0 6) s := by decide

/-- ReadAfterWrite, and every statement whose hypothesis is canonical memory: the last ROM byte, the first RAM byte, the
last byte; writing the fill byte gives the memory back. -/
theorem test_witness_ReadAfterWrite :
    let s := code [0x76]
    s.mem.wf = true ∧ (s.writeByte 0x3FFF 9).readByte 0x3FFF = 0 ∧ (s.writeByte 0x4000 9).readByte 0x4000 = 9 ∧
    (s.writeByte 0xFFFF 9).readByte 0xFFFF = 9 ∧ ((s.writeByte 0x4000 9).writeByte 0x4000 0).mem = s.mem := by decide

/-- ReadAfterWrite's last clause: two canonical memories that read alike. -/
theorem test_witness_ReadAfterWrite_ext :
    Memory.wf [(0x4000, 9)] = true ∧ Memory.wf ((State.reset.writeByte 0x4000 9).mem) = true ∧
    ∀ a : Word, Memory.get [(0x4000, 9)] a.toNat = Memory.get ((State.reset.writeByte 0x4000 9).mem) a.toNat :=
  ⟨by decide, by decide, fun _ => rfl⟩

/-- WordsAreLittleEndianAndWrap: a word at 0xFFFF. -/
theorem test_witness_Words :
    let s := (code []).writeWord 0xFFFF 0x1234
    (code []).mem.wf = true ∧ s.readByte 0xFFFF = 0x34 ∧ s.readByte 0 = 0 ∧
    ((code []).writeWord 0x3FFF 0x1234).readByte 0x4000 = 0x12 := by decide

/-- Pops: the lowest stack whose two bytes are RAM. -/
theorem test_witness_Pops :
    let s : State := { code [] with sp := 0x4002, main := { block 0 0x1234 0 0 with f := 0x55 } }
    s.mem.wf = true ∧ 0x3FFF < (s.sp - 2).toNat ∧ 0x3FFF < (s.sp - 1).toNat ∧
    exec (.pushRp .bc) s = .next (ran (.pushRp .bc) s) ∧
    exec (.popRp .bc) (ran (.pushRp .bc) s) = .next (ran (.popRp .bc) (ran (.pushRp .bc) s)) ∧
    (ran (.popRp .bc) (ran (.pushRp .bc) s)).main = s.main ∧
    (ran (.popRp .bc) (ran (.pushRp .bc) { s with sp := 0x4001 })).main ≠ s.main := by
  refine ⟨by decide, by decide, by decide, rfl, rfl, by decide, by decide⟩

/-- SubSbcAndCp, BlockCompare, WordAdd: the inner hypotheses name the result, the sum or the operand. -/
theorem test_witness_inner :
    ((0x38 : Byte).toNat : Int) = (((0x40 : Byte).toNat : Int) - (0x08 : Byte).toNat) % 256 ∧
    ((0xFF : Byte).toNat : Int) = (((0x00 : Byte).toNat : Int) - (0x01 : Byte).toNat) % 256 ∧
    (IdxPair.xy = .xy → ({ code [] with ixh := 0x80 } : State).xy .ix = 0x8000) ∧
    ((255 : Nat) : Int) = (((0 : Byte).toNat : Int) + (-1)) % 256 := by decide

/-- DecimalArithmetic: 19 + 28, 99 + 1 (programs P3), 42 - 15, and a difference below 0. -/
theorem test_witness_DecimalArithmetic :
    let s := withAF (code []) 0x19 0
    let u := withAF (code []) 0x15 0
    s.main.a.toNat = 19 / 10 * 16 + 19 % 10 ∧ (0x28 : Byte).toNat = 28 / 10 * 16 + 28 % 10 ∧
    exec (.addAN 0x28) s = .next (ran (.addAN 0x28) s) ∧
    exec .daa (ran (.addAN 0x28) s) = .next (ran .daa (ran (.addAN 0x28) s)) ∧
    (ran .daa (ran (.addAN 0x28) s)).main.a = 0x47 ∧
    (ran .daa (ran (.addAN 0x01) (withAF (code []) 0x99 0))).main.a = 0 ∧
    exec (.subN 0x42) u = .next (ran (.subN 0x42) u) ∧ (ran .daa (ran (.subN 0x42) u)).main.a = 0x73 ∧
    (ran .daa (ran (.subN 0x42) u)).main.f.getLsbD 0 = true := by
  refine ⟨by decide, by decide, rfl, rfl, by decide, by decide, rfl, by decide, by decide⟩

/-- AccumulatorRotates: RLCA then RRCA (S3), RLA then RRA. -/
theorem test_witness_AccumulatorRotates :
    let s := withAF (code []) 0x81 0
    exec .rlca s = .next (ran .rlca s) ∧ exec .rrca (ran .rlca s) = .next (ran .rrca (ran .rlca s)) ∧
    (ran .rrca (ran .rlca s)).main.a = 0x81 ∧ (ran .rrca (ran .rlca s)).main.f.getLsbD 0 = true ∧
    (ran .rra (ran .rla s)).main.a = 0x81 ∧ (ran .rra (ran .rla s)).main.f.getLsbD 0 = false := by
  refine ⟨rfl, rfl, by decide, by decide, by decide, by decide⟩

/-- BlockTransfer, BlockCompare, BlockIn, BlockOut: a form that goes again and one that ends, at the count's boundary. -/
theorem test_witness_blocks :
    let s (bc : Word) (a : Byte) : State := { code [] with main := block a bc 0xA000 0x9000 }
    (s 2 0).mem.wf = true ∧ (ran .ldir (s 2 0)).pc = 0x8000 ∧ (ran .ldir (s 1 0)).pc = 0x8002 ∧
    (ran .lddr (s 0 0)).pc = 0x8000 ∧ (ran .cpir (s 2 1)).pc = 0x8000 ∧ (ran .cpir (s 2 0)).pc = 0x8002 ∧
    (ran .cpdr (s 1 1)).pc = 0x8002 ∧ (ran .inir (s 0x0200 0)).pc = 0x8000 ∧ (ran .indr (s 0x0100 0)).pc = 0x8002 ∧
    (ran .otir (s 0 0)).pc = 0x8000 ∧ (ran .otdr (s 0x0100 0)).pc = 0x8002 := by decide

/-- PortGave's three cases: no capability, a listed answer, the free value. -/
theorem test_witness_PortInput :
    (ran (.inAN 0) State.reset).main.a = 255 ∧
    (ran (.inAN 0) { State.reset with readPort := some [3] }).main.a = 3 ∧
    (ran (.inAN 5) { State.reset with readPort := some [], portReads := 4 }).main.a = Config.portAnswer 4 5 :=
  ⟨by decide, by decide, rfl⟩

/-- Jumps, Calls, Returns: each condition true and false. -/
theorem test_witness_conditions :
    condTrue 0x00 .nz = true ∧ condTrue 0x40 .nz = false ∧ condTrue 0x40 .z = true ∧ condTrue 0 .nc = true ∧
    condTrue 1 .c = true ∧ condTrue 0 .po = true ∧ condTrue 4 .pe = true ∧ condTrue 0 .p = true ∧ condTrue 0x80 .m = true ∧
    condTrue 0x80 .p = false := by decide

/-- Halt: both outcomes, at the boundary. -/
theorem test_witness_Halt :
    let s (t : Nat) : State := { State.reset with iff := true, t := t }
    (ran .halt (s 69883)).pc = 0 ∧ (ran .halt (s 69884)).pc = 1 ∧ (ran .halt (s 69887)).pc = 1 ∧
    (ran .halt (s 69888)).pc = 0 := by decide

/-- InterruptAcceptance: the request line's first and last T-state, and the first after it. -/
theorem test_witness_InterruptAcceptance :
    let s (t : Nat) : State := { State.reset with iff := true, t := t }
    (s 0).mem.wf = true ∧ MayAccept (s 0) ∧ MayAccept (s 31) ∧ ¬ MayAccept (s 32) ∧
    ¬ MayAccept { s 0 with last := .ei } ∧ ¬ MayAccept { s 0 with iff := false } := by
  refine ⟨by decide, ⟨rfl, by decide, by decide, by decide, by decide⟩, ⟨rfl, by decide, by decide, by decide, by decide⟩,
    fun h => absurd h.2.2.2.2 (by decide), fun h => h.2.1 rfl, fun h => absurd h.1 (by decide)⟩

/-- InterruptAcceptance: the two vectors. -/
theorem test_witness_InterruptAcceptance_vectors :
    let s (m : IntMode) : State := { placed State.reset 0x90FF [0x00, 0xA0] with iff := true, i := 0x90, im := m }
    (s .im0).acceptanceCheck.pc = 0x0038 ∧ (s .im1).acceptanceCheck.t = 13 ∧ (s .im2).acceptanceCheck.pc = 0xA000 ∧
    (s .im2).acceptanceCheck.t = 19 := by decide

/-- AcceptanceIsDeferred: the request line is active and IFF set. -/
theorem test_witness_AcceptanceIsDeferred :
    let s := { code [0xFB] with iff := true }
    let u := { code [0xDD, 0x00] with iff := true }
    step s = .next (after s) ∧ s.fetchInstr = .ei ∧ step u = .next (after u) ∧ u.fetchInstr = .lonePrefix .ix ∧
    (after u).pc = 0x8001 := by
  refine ⟨rfl, by decide, rfl, by decide, by decide⟩

/-- HaltSteps: IFF clear; IFF set and the step crosses the frame boundary. -/
theorem test_witness_HaltSteps :
    let s := code [0x76]
    let u := { code [0x76] with iff := true, t := 69886, sp := 0xC000 }
    s.fetchInstr = .halt ∧ s.iff = false ∧ step s = .next (after s) ∧ u.mem.wf = true ∧ u.cfg.wf = true ∧
    u.fetchInstr = .halt ∧ step u = .next (after u) ∧ 4 ≤ u.cfg.intActive ∧
    u.t / u.cfg.frameDuration < (u.t + 4) / u.cfg.frameDuration ∧ (after u).iff = false := by
  refine ⟨by decide, by decide, rfl, by decide, by decide, by decide, rfl, by decide, by decide, by decide⟩

/-- InterruptedRepeatPushesItsAddress: V60.10's state. -/
theorem test_witness_InterruptedRepeat :
    let s : State := { code [0xED, 0xB0] with iff := true, sp := 0xC000, main := block 0 3 0xA000 0x9000 }
    let t := ran .ldir s
    Instr.repeating .ldir = true ∧ s.mem.wf = true ∧ exec .ldir s = .next t ∧ t.pc = s.pc ∧ MayAccept t ∧
    t.acceptanceCheck.readWord 0xBFFE = 0x8000 := by
  refine ⟨by decide, by decide, rfl, by decide, ⟨by decide, by decide, by decide, by decide, by decide⟩, by decide⟩

/-- RunIsStepsToTheStop: two NOPs to a stop address. -/
theorem test_witness_Run :
    (match Sys2Proof.core.run 2 State.reset with
      | .next t => decide (t.pc = 2)
      | _ => false) = true ∧
    (match run noTrace 9 none (some 2) State.reset with
      | .returned t => decide (t.pc = 2 ∧ t.t = 8)
      | _ => false) = true := by decide

/-- ImportThenExport: an unknown name, two slots, and the values that are reduced. -/
theorem test_witness_Import :
    lookupName "af" = none ∧ SlotName.a ≠ .f ∧ (State.reset.importValue (.slot .a) (-1)).regValue (.slot .a) = 255 ∧
    (State.reset.importValue (.pair .ix) 65537).regValue (.pair .ix) = 1 ∧
    (State.reset.importValue .t (-5)).regValue .t = 0 := by decide

end Sys2Proof.Tests
end

/-! # The family of 00_scope.md

First what every instruction does to the configuration, to memory and to LAST, whichever it is (`exec_completes`, over all of
`Instr`): it answers a next state, stores at most one byte or word, and leaves LAST = EI only with IFF set and LAST = HALTED
only as HALT does. The invariant of a step and the statement on the rows of the prefixes both follow from it. -/

namespace Sys2Proof.Machine

/-! ## What an instruction leaves of the configuration, memory and LAST -/

/-- `m` is the memory of `s` after at most one store: none, a byte or a word, each through the ROM check (R53, R54). -/
inductive AtMostOneStore (s : State) : Memory → Prop
  | none : AtMostOneStore s s.mem
  | byte (a : Word) (v : Byte) : AtMostOneStore s (s.writeByte a v).mem
  | word (a v : Word) : AtMostOneStore s (s.writeWord a v).mem

theorem AtMostOneStore.wf {s : State} {m : Memory} (h : AtMostOneStore s m) (hs : s.mem.wf = true) : m.wf = true := by
  cases h with
  | none => exact hs
  | byte a v => exact State.writeByte_mem_wf hs a v
  | word a v => exact State.writeWord_mem_wf hs a v

/-- How the instruction `i` leaves LAST (R34): HALTED is HALT's alone, with PC and memory as they were (R331), and EI comes
with IFF set (R333). -/
inductive LastLeft (i : Instr) (s t : State) : Prop
  | other (last : t.last = .other)
  | ei (last : t.last = .ei) (enabled : t.iff = true)
  | lonePrefix (last : t.last = .lonePrefix)
  | halted (last : t.last = .halted) (isHalt : i = .halt) (pcKept : t.pc = s.pc) (memKept : t.mem = s.mem)

/-- What holds of the state `t` after `i` whichever instruction `i` is. -/
structure Effect (i : Instr) (s t : State) : Prop where
  cfg : t.cfg = s.cfg
  mem : AtMostOneStore s t.mem
  last : LastLeft i s t

/-- The outcome `o` of `i` is a next state, with the effect above. -/
def Completes (i : Instr) (s : State) (o : Out) : Prop := ∃ t, o = .next t ∧ Effect i s t

/-- What an operation other than HALT, EI and `lonePrefix` has left before its bookkeeping ends. -/
structure Working (s u : State) : Prop where
  cfg : u.cfg = s.cfg
  last : u.last = .other
  mem : AtMostOneStore s u.mem

theorem Working.of_kept {s u : State} (hc : u.cfg = s.cfg) (hl : u.last = .other) (hm : u.mem = s.mem) : Working s u :=
  ⟨hc, hl, hm ▸ .none⟩

theorem Working.of_byte {s u : State} {n : Nat} {a : Word} {v : Byte} (hc : u.cfg = s.cfg) (hl : u.last = .other)
    (hm : u.mem = ((s.prologue n).writeByte a v).mem) : Working s u := by
  rw [writeByte_mem_congr (s := s) (t := s.prologue n) rfl] at hm
  exact ⟨hc, hl, hm ▸ .byte a v⟩

theorem Working.of_word {s u : State} {n : Nat} {a v : Word} (hc : u.cfg = s.cfg) (hl : u.last = .other)
    (hm : u.mem = ((s.prologue n).writeWord a v).mem) : Working s u := by
  rw [writeWord_mem_congr (s := s) (t := s.prologue n) rfl] at hm
  exact ⟨hc, hl, hm ▸ .word a v⟩

theorem Working.push16 (s : State) (n : Nat) (v : Word) : Working s ((s.prologue n).push16 v) :=
  .of_word (by simp) (by simp) (push16_mem _ _)

theorem Working.ldStep (s : State) (δ : Word) : Working s ((s.prologue 2).ldStep δ) := by
  rw [ldStep_eq]
  exact ⟨rfl, rfl, .byte _ _⟩

theorem Working.cpStep (s : State) (δ : Word) : Working s ((s.prologue 2).cpStep δ) := by
  rw [cpStep_eq]
  exact ⟨rfl, rfl, .none⟩

theorem Working.inStep (s : State) (δ : Word) : Working s ((s.prologue 2).inStep δ) := by
  rw [inStep_eq]
  exact ⟨rfl, rfl, .byte _ _⟩

theorem Working.outStep (s : State) (δ : Word) : Working s ((s.prologue 2).outStep δ) := by
  rw [outStep_eq]
  exact ⟨rfl, rfl, .none⟩

section Ends

variable {i : Instr} {s u : State}

theorem Working.finish (h : Working s u) (a : Word) (ts : Nat) : Completes i s (u.finish a ts) :=
  ⟨_, rfl, h.cfg, h.mem, .other h.last⟩

theorem Working.endSeq (h : Working s u) (len ts : Nat) : Completes i s (u.endSeq len ts) := h.finish _ ts

theorem Working.repeatOrEnd (h : Working s u) (again : Bool) : Completes i s (u.repeatOrEnd again) := by
  rw [repeatOrEnd_next]
  exact ⟨_, rfl, h.cfg, h.mem, .other h.last⟩

theorem Completes.branch {c : Bool} {o o' : Out} (h : Completes i s o) (h' : Completes i s o') :
    Completes i s (if c then o else o') := by
  cases c
  · exact h'
  · exact h

end Ends

/-! ## Every instruction completes -/

/-- The rows of the five prefixes, which are no complete instructions (R12). -/
def isPrefixRow : Instr → Bool
  | .prefixCB | .prefixED | .prefixDD | .prefixFD | .prefixXYCB _ => true
  | _ => false

/-- Every row but the five prefixes, by the shape of its meaning: a branch, a store, a push, a block step, an update of
registers by a pair or half named in the instruction; the last case is the rows that only read and set registers. -/
theorem exec_completes_of_not_prefixRow (i : Instr) (s : State) (hi : isPrefixRow i = false) :
    Completes i s (exec i s) := by
  cases i with
  | prefixCB | prefixED | prefixDD | prefixFD | prefixXYCB => exact Bool.noConfusion hi
  | halt =>
    exact .branch ⟨_, rfl, rfl, .none, .other rfl⟩ ⟨_, rfl, rfl, .none, .halted rfl rfl rfl rfl⟩
  | ei => exact ⟨_, rfl, rfl, .none, .ei rfl rfl⟩
  | lonePrefix => exact ⟨_, rfl, rfl, .none, .lonePrefix rfl⟩
  | jpCcNn | jrCc | djnz | retCc =>
    exact .branch ⟨_, rfl, rfl, .none, .other rfl⟩ ⟨_, rfl, rfl, .none, .other rfl⟩
  | callCcNn => exact .branch ((Working.push16 s 1 _).finish _ _) ⟨_, rfl, rfl, .none, .other rfl⟩
  | callNn | rst => exact (Working.push16 s 1 _).finish _ _
  | pushRp => exact (Working.push16 s 1 _).endSeq _ _
  | pushXY => exact (Working.push16 s 2 _).endSeq _ _
  | ldIndA | ldAtHLR | ldAtHLN | ldAtNnA | ldAtXYR | ldAtXYN | incAtHL | decAtHL | incAtXY | decAtXY | rld | rrd
  | rlcAtHL | rrcAtHL | rlAtHL | rrAtHL | slaAtHL | sraAtHL | sllAtHL | srlAtHL | resAtHL | setAtHL
  | rlcAtXY | rrcAtXY | rlAtXY | rrAtXY | slaAtXY | sraAtXY | sllAtXY | srlAtXY | resAtXY | setAtXY
  | rlcAtXYR | rrcAtXYR | rlAtXYR | rrAtXYR | slaAtXYR | sraAtXYR | sllAtXYR | srlAtXYR | resAtXYR | setAtXYR =>
    refine Working.endSeq ?_ _ _
    exact .of_byte (by simp) (by simp) rfl
  | ldAtNnHL | ldAtNnRp | ldAtNnXY | exSPHL =>
    refine Working.endSeq ?_ _ _
    exact .of_word (by simp) (by simp) rfl
  | exSPXY => exact Working.endSeq (.of_word (by simp) (by simp) (State.setXY_mem _ _ _)) _ _
  | ldi | ldd => exact (Working.ldStep s _).endSeq _ _
  | ldir | lddr => exact (Working.ldStep s _).repeatOrEnd _
  | cpi | cpd => exact (Working.cpStep s _).endSeq _ _
  | cpir | cpdr => exact (Working.cpStep s _).repeatOrEnd _
  | ini | ind => exact (Working.inStep s _).endSeq _ _
  | inir | indr => exact (Working.inStep s _).repeatOrEnd _
  | outi | outd => exact (Working.outStep s _).endSeq _ _
  | otir | otdr => exact (Working.outStep s _).repeatOrEnd _
  | ldRpNn | incRp | decRp | ldRpAtNn | popRp | ldXYNn | ldXYAtNn | incXY | decXY | addXYRp | popXY | incXYH | decXYH
  | ldXYHN | ldXYHR | ldXYHXYH | inAN | inRC | inFC =>
    exact Working.endSeq (.of_kept (by simp) (by simp) (by simp)) _ _
  | _ => exact ⟨_, rfl, rfl, .none, .other rfl⟩

/-- A table's entry runs as itself, unless it is one of the main table or of the prefixes (`runTableEntry`'s last arm). -/
theorem runTableEntry_cases (i : Instr) (s : State) :
    (isPrefixRow i = false ∧ i ≠ .halt ∧ runTableEntry i s = exec i s) ∨
      runTableEntry i s = .next { s with last := .other } := by
  cases i with
  | nop | ldRpNn | ldIndA | incRp | incR | incAtHL | decR | decAtHL | ldRN | ldAtHLN | rlca | rrca | rla | rra | daa | cpl
  | scf | ccf | exAfAf | addHLRp | ldAInd | decRp | djnz | jr | jrCc | ldAtNnHL | ldHLAtNn | ldAtNnA | ldAAtNn | ldRR
  | ldRAtHL | ldAtHLR | halt | addAR | addAAtHL | addAN | adcAR | adcAAtHL | adcAN | subR | subAtHL | subN | sbcAR
  | sbcAAtHL | sbcAN | andR | andAtHL | andN | xorR | xorAtHL | xorN | orR | orAtHL | orN | cpR | cpAtHL | cpN | retCc
  | popRp | jpCcNn | jpNn | outNA | inAN | exSPHL | exDEHL | di | ei | callCcNn | pushRp | callNn | rst | ret | exx | jpHL
  | ldSPHL | prefixCB | prefixED | prefixDD | prefixFD | prefixXYCB => exact .inr rfl
  | _ => exact .inl ⟨rfl, nofun, rfl⟩

/-- No table's entry acts as HALT does, so the effect is the same whichever row it is ascribed to. -/
theorem runTableEntry_completes (i j : Instr) (s : State) : Completes i s (runTableEntry j s) := by
  obtain ⟨hj, hne, he⟩ | he := runTableEntry_cases j s
  · obtain ⟨t, ht, hcfg, hmem, hlast⟩ := exec_completes_of_not_prefixRow j s hj
    refine ⟨t, he.trans ht, hcfg, hmem, ?_⟩
    cases hlast with
    | other h => exact .other h
    | ei h h' => exact .ei h h'
    | lonePrefix h => exact .lonePrefix h
    | halted _ h => exact absurd h hne
  · exact ⟨_, he, rfl, .none, .other rfl⟩

/-- What every instruction does: it answers a next state, with the effect above (R350: no instruction faults). -/
theorem exec_completes (i : Instr) (s : State) : Completes i s (exec i s) := by
  cases h : isPrefixRow i with
  | false => exact exec_completes_of_not_prefixRow i s h
  | true =>
    cases i with
    | prefixCB | prefixED | prefixDD | prefixFD | prefixXYCB => exact runTableEntry_completes _ _ s
    | _ => exact Bool.noConfusion h

/-! ## The instruction at PC behind each of the prefixes (rules R82, R96) -/

section Prefixes

variable {s : State}

theorem exec_fetchInstr_of_CB (h : s.fetch 0 = 0xCB) : exec s.fetchInstr s = exec .prefixCB s := by
  rw [State.fetchInstr, h]
  exact (runTableEntry_decodeCB _ s).symm

theorem exec_fetchInstr_of_ED (h : s.fetch 0 = 0xED) : exec s.fetchInstr s = exec .prefixED s := by
  rw [State.fetchInstr, h]
  exact (runTableEntry_decodeED _ _ _ s).symm

theorem exec_fetchInstr_of_DD (h : s.fetch 0 = 0xDD) : exec s.fetchInstr s = exec .prefixDD s := by
  rw [State.fetchInstr, h]
  exact (runTableEntry_decodeXY .ix _ _ _ s).symm

theorem exec_fetchInstr_of_FD (h : s.fetch 0 = 0xFD) : exec s.fetchInstr s = exec .prefixFD s := by
  rw [State.fetchInstr, h]
  exact (runTableEntry_decodeXY .iy _ _ _ s).symm

/-- CB after DD or FD selects the table of the fourth byte (R96). -/
theorem exec_fetchInstr_of_XYCB (x : XY) (h : s.fetch 0 = x.code) (h' : s.fetch 1 = 0xCB) :
    exec s.fetchInstr s = exec (.prefixXYCB x) s := by
  rw [State.fetchInstr, h, h']
  cases x <;> exact (runTableEntry_decodeXYCB _ _ _ s).symm

theorem same_next_of_exec_eq {i j : Instr} (h : exec i s = exec j s) :
    ∃ t, exec i s = .next t ∧ exec j s = .next t := by
  obtain ⟨t, ht, -⟩ := exec_completes i s
  exact ⟨t, ht, h.symm.trans ht⟩

end Prefixes

/-- Settles O18: each of the five rows is `runTableEntry` of its table's entry, and running a table's entry is running that
instruction. -/
theorem prefixRowsRunTheirTables : Obligations.PrefixRowsRunTheirTables := fun s =>
  ⟨same_next_of_exec_eq (runTableEntry_decodeCB _ s), same_next_of_exec_eq (runTableEntry_decodeED _ _ _ s),
    same_next_of_exec_eq (runTableEntry_decodeXY .ix _ _ _ s), same_next_of_exec_eq (runTableEntry_decodeXY .iy _ _ _ s),
    fun x => same_next_of_exec_eq (runTableEntry_decodeXYCB x _ _ s), exec_fetchInstr_of_CB, exec_fetchInstr_of_ED,
    exec_fetchInstr_of_DD, exec_fetchInstr_of_FD, exec_fetchInstr_of_XYCB⟩

/-! ## Where HALT stands (rule R97) -/

/-- The tables behind the prefixes hold no HALT: there `runTableEntry` would leave T as it was. -/
theorem ne_halt_of_runTableEntry {j : Instr} (h : ∀ s, runTableEntry j s = exec j s) : j ≠ .halt := by
  rintro rfl
  exact nomatch congrArg State.t (Host.Outcome.next.inj (h State.reset))

theorem decodeMain0_ne_halt (op b1 b2 : Byte) : decodeMain0 op b1 b2 ≠ .halt := by
  unfold decodeMain0
  simp only []
  repeat' split
  all_goals nofun

theorem decodeMain3_ne_halt (op b1 b2 : Byte) : decodeMain3 op b1 b2 ≠ .halt := by
  unfold decodeMain3 aluImm
  simp only []
  repeat' split
  all_goals nofun

theorem aluReg_ne_halt (o : BitVec 3) (r : Reg8) : aluReg o r ≠ .halt := by
  unfold aluReg
  split <;> nofun

theorem aluAtHL_ne_halt (o : BitVec 3) : aluAtHL o ≠ .halt := by
  unfold aluAtHL
  split <;> nofun

theorem decodeMain1_eq_halt (op : Byte) (hx : fieldX op = 1) (h : decodeMain1 op = .halt) : op = 0x76 := by
  revert op
  decide

theorem decodeMain_eq_halt {op b1 b2 : Byte} (h : decodeMain op b1 b2 = .halt) : op = 0x76 := by
  unfold decodeMain at h
  split at h
  · exact absurd h (decodeMain0_ne_halt op b1 b2)
  · next hx => exact decodeMain1_eq_halt op hx h
  · split at h
    · exact absurd h (aluReg_ne_halt _ _)
    · exact absurd h (aluAtHL_ne_halt _)
  · exact absurd h (decodeMain3_ne_halt op b1 b2)

/-- HALT has the one opcode 0x76 (R97, R331). -/
theorem decode4_eq_halt {b0 b1 b2 b3 : Byte} (h : decode4 b0 b1 b2 b3 = .halt) : b0 = 0x76 := by
  unfold decode4 at h
  split_ifs at h
  · exact absurd h (ne_halt_of_runTableEntry (runTableEntry_decodeCB b1))
  · exact absurd h (ne_halt_of_runTableEntry (runTableEntry_decodeED b1 b2 b3))
  · exact absurd h (ne_halt_of_runTableEntry (runTableEntry_decodeXY .ix b1 b2 b3))
  · exact absurd h (ne_halt_of_runTableEntry (runTableEntry_decodeXY .iy b1 b2 b3))
  · exact decodeMain_eq_halt h

theorem readByte_pc_of_fetchInstr_halt {s : State} (h : s.fetchInstr = .halt) : s.readByte s.pc = 0x76 := by
  have h0 : s.fetch 0 = 0x76 := decode4_eq_halt h
  rwa [State.fetch, BitVec.ofNat_eq_ofNat, BitVec.add_zero] at h0

/-! ## The invariant (rules R8, R50, R331, R333, R357) -/

theorem State.Inv.of_effect {s u : State} (hs : s.Inv) (h : Effect s.fetchInstr s u) : u.Inv := by
  refine ⟨h.mem.wf hs.memWf, h.cfg ▸ hs.cfgWf, fun hl => ?_, fun hl => ?_⟩
  · cases h.last with
    | halted _ hi hpc hm => rw [hpc, readByte_congr hm, readByte_pc_of_fetchInstr_halt hi]
    | other ho | ei ho | lonePrefix ho => exact nomatch ho.symm.trans hl
  · cases h.last with
    | ei _ hiff => exact hiff
    | other ho | lonePrefix ho | halted ho => exact nomatch ho.symm.trans hl

/-- Taking the interrupt leaves LAST = OTHER, so the two clauses on LAST say nothing of the state after it (R354). -/
theorem State.Inv.takeInterrupt {u : State} (hu : u.Inv) : u.takeInterrupt.Inv := by
  rw [takeInterrupt_eq]
  exact ⟨State.writeWord_mem_wf hu.memWf _ _, hu.cfgWf, nofun, nofun⟩

theorem State.Inv.acceptanceCheck {u : State} (hu : u.Inv) : u.acceptanceCheck.Inv := by
  unfold State.acceptanceCheck
  split
  · exact hu.takeInterrupt
  · exact hu

theorem step_eq_next {s t : State} (h : step s = .next t) :
    ∃ u, exec s.fetchInstr s = .next u ∧ t = u.acceptanceCheck := by
  unfold step at h
  split at h
  · next u hu => exact ⟨u, hu, (Host.Outcome.next.inj h).symm⟩
  · cases h
  · cases h

/-- Settles O9: the instruction at PC keeps the invariant, and then the acceptance check does. -/
theorem stepKeepsInv : Obligations.StepKeepsInv := by
  intro s t hs h
  obtain ⟨u, hu, rfl⟩ := step_eq_next h
  obtain ⟨u', hu', heff⟩ := exec_completes s.fetchInstr s
  cases hu.symm.trans hu'
  exact (hs.of_effect heff).acceptanceCheck

end Sys2Proof.Machine

/-! # The family of 10_state.md

First reset, the register pairs and the host's names. Then what every instruction leaves of the fields outside
the main registers and memory, of T and of LAST (`exec_leaves`, over all rows but the five prefixes, which run one of the
others): time, the writers of each field and LAST all follow from it. Last, two states that differ in the fast-path switches
alone run side by side. -/

namespace Sys2Proof.Machine

/-! ## Reset (rule R39) -/

/-- Settles O7, by evaluation of the record `State.reset`, register by register. -/
theorem resetValues : Obligations.ResetValues :=
  ⟨fun r => by cases r <;> exact ⟨rfl, rfl⟩, rfl, rfl, fun x h => by cases x <;> cases h <;> rfl, rfl, rfl, rfl, rfl,
    rfl, rfl, rfl, rfl, rfl, rfl⟩

/-- Settles O8: memory lists nothing, the configuration is the example one, and LAST = OTHER leaves the clauses on HALTED and
EI nothing to say. -/
theorem resetInv : Obligations.ResetInv := ⟨State.reset_mem_wf, by decide, nofun, nofun⟩

/-! ## Register pairs (rules R22, R23) -/

theorem hiByte_eq_ofNat (w : Word) : hiByte w = BitVec.ofNat 8 (w.toNat / 256) := by
  rw [← hiByte_toNat, BitVec.ofNat_toNat, BitVec.setWidth_eq]

theorem loByte_eq_ofNat (w : Word) : loByte w = BitVec.ofNat 8 (w.toNat % 256) := by
  rw [← loByte_toNat, BitVec.ofNat_toNat, BitVec.setWidth_eq]

theorem xy_eq_pair (s : State) (x : XY) : s.xy x = pair (s.half x .hi) (s.half x .lo) := by cases x <;> rfl

theorem half_setHalf (s : State) (x y : XY) (h k : Half) (v : Byte) :
    (s.setHalf x h v).half y k = if y = x ∧ k = h then v else s.half y k := by
  cases x <;> cases h <;> cases y <;> cases k <;> rfl

theorem xy_setXY (s : State) (x y : XY) (v : Word) : (s.setXY x v).xy y = if y = x then v else s.xy y := by
  cases x <;> cases y
  case ix.ix | iy.iy => exact pair_hi_lo v
  case ix.iy | iy.ix => rfl

theorem loadedXY_setXY (s : State) (x : XY) (v : Word) : LoadedXY s (s.setXY x v) x v :=
  ⟨by rw [xy_setXY, if_pos rfl], fun y hy => by rw [xy_setXY, if_neg hy], by cases x <;> rfl⟩

theorem loadedHalf_setHalf (s : State) (x : XY) (h : Half) (v : Byte) : LoadedHalf s (s.setHalf x h v) x h v :=
  ⟨by rw [half_setHalf, if_pos ⟨rfl, rfl⟩], fun y k hk => by rw [half_setHalf, if_neg (not_and_or.mpr hk)],
    by cases x <;> cases h <;> rfl⟩

theorem xy_setHalf_hi (s : State) (x : XY) (v : Byte) : (s.setHalf x .hi v).xy x = pair v (s.half x .lo) := by
  rw [xy_eq_pair, half_setHalf, half_setHalf, if_pos ⟨rfl, rfl⟩, if_neg nofun]

theorem xy_setHalf_lo (s : State) (x : XY) (v : Byte) : (s.setHalf x .lo v).xy x = pair (s.half x .hi) v := by
  rw [xy_eq_pair, half_setHalf, half_setHalf, if_neg nofun, if_pos ⟨rfl, rfl⟩]

/-- Settles O21: every pair is `pair high low`, whose number is `high*256 + low`. -/
theorem pairsAreTheirHalves : Obligations.PairsAreTheirHalves := by
  refine ⟨fun g => ⟨pair_toNat _ _, pair_toNat _ _, pair_toNat _ _, pair_toNat _ _⟩, fun g v => ?_,
    fun g v => ⟨pair_toNat _ _, pair_toNat _ _, pair_toNat _ _, pair_toNat _ _, pair_toNat _ _, pair_toNat _ _⟩,
    fun s x => ?_, loadedXY_setXY, loadedHalf_setHalf, fun s x v => ⟨?_, ?_⟩⟩
  · rw [← hiByte_eq_ofNat, ← loByte_eq_ofNat]
    exact ⟨rfl, rfl, rfl, rfl⟩
  · rw [xy_eq_pair, pair_toNat]
  · rw [xy_setHalf_hi, pair_toNat]
  · rw [xy_setHalf_lo, pair_toNat]

/-! ## The host's names (rules R36 to R38) -/

/-- The reduction of R37: the host's integer mod `2 ^ w`. -/
theorem ofInt_toNat (w : Nat) (v : Int) : ((BitVec.ofInt w v).toNat : Int) = v % 2 ^ w := by
  rw [BitVec.toNat_ofInt, Int.toNat_of_nonneg (Int.emod_nonneg _ (by positivity))]
  norm_cast

theorem slot_setSlot (s : State) (m n : SlotName) (v : Byte) :
    (s.setSlot m v).slot n = if n = m then v else s.slot n := by
  cases m <;> cases n <;> rfl

theorem PairName.slots_ne (n : PairName) : n.slots.1 ≠ n.slots.2 := by cases n <;> nofun

theorem regValue_importValue_slot (s : State) (n : SlotName) (v : Int) :
    ((s.importValue (.slot n) v).regValue (.slot n) : Int) = v % 256 := by
  simp only [State.importValue, State.regValue, slot_setSlot, if_true]
  exact ofInt_toNat 8 v

/-- The low half is written after the high one and to another slot, so both halves are read back. -/
theorem regValue_importValue_pair (s : State) (n : PairName) (v : Int) :
    ((s.importValue (.pair n) v).regValue (.pair n) : Int) = v % 65536 := by
  simp only [State.importValue, State.regValue, slot_setSlot, if_true, if_neg n.slots_ne, pair_hi_lo]
  exact ofInt_toNat 16 v

/-- Settles O59, name by name: a slot, a pair, SP and PC, T. -/
theorem importThenExport : Obligations.ImportThenExport := by
  refine ⟨fun s n v => ?_, fun s name h => ⟨?_, fun v => ?_⟩, fun s m n v h => ?_⟩
  · cases n with
    | slot n => exact regValue_importValue_slot s n v
    | pair n => exact regValue_importValue_pair s n v
    | sp | pc => exact ofInt_toNat 16 v
    | t => exact Int.ofNat_toNat v
  · rw [State.readByName, h]
  · rw [State.writeByName, h]
  · rw [State.importValue, slot_setSlot, if_neg h.symm]

/-! ## What an instruction leaves of the fields outside the main registers and memory, of T and of LAST -/

/-- The one instruction that may write I (R28). -/
def writesI : Instr → Bool
  | .ldIA => true
  | _ => false

/-- The instructions that may write IM (R33). -/
def writesIM : Instr → Bool
  | .im0 _ | .im1 _ | .im2 _ => true
  | _ => false

/-- The instructions that may write IFF (R32). -/
def writesIFF : Instr → Bool
  | .ei | .di => true
  | _ => false

/-- The instructions that may write the shadow registers (R30). -/
def writesShadow : Instr → Bool
  | .exAfAf | .exx => true
  | _ => false

/-- From `s` to `t` nothing changed but what every instruction may write (PC, R, T, LAST, the main registers, memory) and the
fields `i` is among the writers of. -/
def Framed (i : Instr) (s t : State) : Prop :=
  t = { s.clocked t with
    main := t.main, mem := t.mem,
    i := bif writesI i then t.i else s.i,
    im := bif writesIM i then t.im else s.im,
    iff := bif writesIFF i then t.iff else s.iff,
    shadow := bif writesShadow i then t.shadow else s.shadow,
    sp := bif i.mayWriteSP then t.sp else s.sp,
    ixh := bif i.mayWriteXY then t.ixh else s.ixh, ixl := bif i.mayWriteXY then t.ixl else s.ixl,
    iyh := bif i.mayWriteXY then t.iyh else s.iyh, iyl := bif i.mayWriteXY then t.iyl else s.iyl,
    readPort := bif i.readsPort then t.readPort else s.readPort,
    portReads := bif i.readsPort then t.portReads else s.portReads,
    portWrites := bif i.writesPort then t.portWrites else s.portWrites }

/-- LAST after `i` at `pc0` has left PC at `pc` (R34, R331, R333, R340). -/
def lastAfter (i : Instr) (pc0 pc : Word) : Last :=
  match i with
  | .ei => .ei
  | .lonePrefix _ => .lonePrefix
  | .halt => if pc = pc0 then .halted else .other
  | _ => .other

/-- What holds of the state `t` after the row `i`: 4 to 23 T-states charged (R396), LAST, and the frame. -/
structure Leaves (i : Instr) (s t : State) : Prop where
  time : ∃ n, 4 ≤ n ∧ n ≤ 23 ∧ t.t = s.t + n
  last : t.last = lastAfter i s.pc t.pc
  frame : Framed i s t

/-- The outcome `o` of `i` is a next state of which the above holds. -/
def Answers (i : Instr) (s : State) (o : Out) : Prop := ∃ t, o = .next t ∧ Leaves i s t

/-- The same of the state `u` that an operation has left before T is charged and PC set. -/
structure Operated (i : Instr) (s u : State) : Prop where
  time : u.t = s.t
  last : u.last = .other
  frame : Framed i s u

section Rules

variable {i : Instr} {s u : State}

theorem Framed.of_main_mem (h : u = { s.clocked u with main := u.main, mem := u.mem }) : Framed i s u := by
  rw [h]
  simp [Framed, State.clocked]

theorem Framed.finish (h : Framed i s u) (n : Nat) (a : Word) : Framed i s { u with t := n, pc := a } :=
  congrArg (fun v : State => ({ v with t := n, pc := a } : State)) h

theorem Operated.finish (h : Operated i s u) {a : Word} {n : Nat} (hl : lastAfter i s.pc a = .other) (h4 : 4 ≤ n)
    (h23 : n ≤ 23) : Answers i s (u.finish a n) :=
  ⟨_, rfl, ⟨n, h4, h23, congrArg (· + n) h.time⟩, h.last.trans hl.symm, h.frame.finish _ _⟩

theorem Answers.branch {c : Bool} {o o' : Out} (h : Answers i s o) (h' : Answers i s o') :
    Answers i s (if c then o else o') := by
  cases c
  · exact h'
  · exact h

theorem Operated.repeatOrEnd (h : Operated i s u) (again : Bool) (hl : ∀ a, lastAfter i s.pc a = .other) :
    Answers i s (u.repeatOrEnd again) :=
  .branch (h.finish (hl _) (by decide) (by decide)) (h.finish (hl _) (by decide) (by decide))

theorem Operated.push16 (n : Nat) (v : Word) (hi : i.mayWriteSP = true) : Operated i s ((s.prologue n).push16 v) := by
  rw [push16_prologue_eq]
  exact ⟨rfl, rfl, by simp [Framed, State.clocked, hi]⟩

theorem Operated.ldStep (δ : Word) : Operated i s ((s.prologue 2).ldStep δ) := by
  rw [ldStep_eq]
  exact ⟨rfl, rfl, .of_main_mem rfl⟩

theorem Operated.cpStep (δ : Word) : Operated i s ((s.prologue 2).cpStep δ) := by
  rw [cpStep_eq]
  exact ⟨rfl, rfl, .of_main_mem rfl⟩

theorem Operated.inStep (δ : Word) (hi : i.readsPort = true) : Operated i s ((s.prologue 2).inStep δ) := by
  rw [inStep_eq]
  exact ⟨rfl, rfl, by simp [Framed, State.clocked, hi]⟩

theorem Operated.outStep (δ : Word) (hi : i.writesPort = true) : Operated i s ((s.prologue 2).outStep δ) := by
  rw [outStep_eq]
  exact ⟨rfl, rfl, by simp [Framed, State.clocked, hi]⟩

end Rules

/-- A port read writes the port's two fields and nothing else (R64). -/
theorem portRead_eq (s : State) (p : Word) :
    (s.portRead p).2 = { s with readPort := (s.portRead p).2.readPort, portReads := (s.portRead p).2.portReads } := by
  unfold State.portRead
  split <;> rfl

/-- A HALT that goes on to the next address does not stay at its own (R331). -/
theorem word_succ_ne (w : Word) : w + 1 ≠ w := by simp

/-- Every row but the five prefixes, by the shape of its meaning: a branch, a push, a store, a block step, a port read, an
update of a pair or half named in the instruction; the last case is the rows that are one record. -/
theorem exec_leaves (i : Instr) (s : State) (hi : isPrefixRow i = false) : Answers i s (exec i s) := by
  cases i with
  | prefixCB | prefixED | prefixDD | prefixFD | prefixXYCB => exact Bool.noConfusion hi
  | halt =>
    exact .branch ⟨_, rfl, ⟨4, by decide, by decide, rfl⟩, (if_neg (word_succ_ne s.pc)).symm, rfl⟩
      ⟨_, rfl, ⟨4, by decide, by decide, rfl⟩, (if_pos rfl).symm, rfl⟩
  | jpCcNn | jrCc | djnz | retCc =>
    exact .branch ⟨_, rfl, ⟨_, by decide, by decide, rfl⟩, rfl, rfl⟩
      ⟨_, rfl, ⟨_, by decide, by decide, rfl⟩, rfl, rfl⟩
  | callCcNn =>
    exact .branch ((Operated.push16 1 _ rfl).finish rfl (by decide) (by decide))
      ⟨_, rfl, ⟨_, by decide, by decide, rfl⟩, rfl, rfl⟩
  | callNn | rst | pushRp => exact (Operated.push16 1 _ rfl).finish rfl (by decide) (by decide)
  | pushXY => exact (Operated.push16 2 _ rfl).finish rfl (by decide) (by decide)
  | ldIndA | ldAtHLR | ldAtHLN | ldAtNnA | ldAtXYR | ldAtXYN | rld | rrd
  | rlcAtHL | rrcAtHL | rlAtHL | rrAtHL | slaAtHL | sraAtHL | sllAtHL | srlAtHL | resAtHL | setAtHL
  | rlcAtXY | rrcAtXY | rlAtXY | rrAtXY | slaAtXY | sraAtXY | sllAtXY | srlAtXY | resAtXY | setAtXY
  | rlcAtXYR | rrcAtXYR | rlAtXYR | rrAtXYR | slaAtXYR | sraAtXYR | sllAtXYR | srlAtXYR | resAtXYR | setAtXYR =>
    refine Operated.finish ⟨by simp, by simp, .of_main_mem ?_⟩ rfl (by decide) (by decide)
    rw [writeByte_eq]
    rfl
  | incAtHL | decAtHL | incAtXY | decAtXY =>
    refine Operated.finish ⟨by simp, by simp, .of_main_mem ?_⟩ rfl (by decide) (by decide)
    rw [State.setResMem, writeByte_eq]
    rfl
  | ldAtNnHL | ldAtNnRp | ldAtNnXY | exSPHL =>
    refine Operated.finish ⟨by simp, by simp, .of_main_mem ?_⟩ rfl (by decide) (by decide)
    rw [writeWord_eq]
    rfl
  | exSPXY x =>
    refine Operated.finish ⟨by simp, by simp, ?_⟩ rfl (by decide) (by decide)
    rw [writeWord_eq]
    cases x <;> rfl
  | ldi | ldd => exact (Operated.ldStep _).finish rfl (by decide) (by decide)
  | ldir | lddr => exact (Operated.ldStep _).repeatOrEnd _ fun _ => rfl
  | cpi | cpd => exact (Operated.cpStep _).finish rfl (by decide) (by decide)
  | cpir | cpdr => exact (Operated.cpStep _).repeatOrEnd _ fun _ => rfl
  | ini | ind => exact (Operated.inStep _ rfl).finish rfl (by decide) (by decide)
  | inir | indr => exact (Operated.inStep _ rfl).repeatOrEnd _ fun _ => rfl
  | outi | outd => exact (Operated.outStep _ rfl).finish rfl (by decide) (by decide)
  | otir | otdr => exact (Operated.outStep _ rfl).repeatOrEnd _ fun _ => rfl
  | inAN | inRC | inFC =>
    refine Operated.finish ⟨by simp, by simp, ?_⟩ rfl (by decide) (by decide)
    rw [portRead_eq]
    rfl
  | ldRpNn p | incRp p | decRp p | ldRpAtNn p | popRp p =>
    cases p <;> exact ⟨_, rfl, ⟨_, by decide, by decide, rfl⟩, rfl, rfl⟩
  | ldXYNn x | ldXYAtNn x | incXY x | decXY x | addXYRp x | popXY x =>
    cases x <;> exact ⟨_, rfl, ⟨_, by decide, by decide, rfl⟩, rfl, rfl⟩
  | incXYH x h | decXYH x h | ldXYHN x h | ldXYHR x h | ldXYHXYH x h =>
    cases x <;> cases h <;> exact ⟨_, rfl, ⟨_, by decide, by decide, rfl⟩, rfl, rfl⟩
  | _ => exact ⟨_, rfl, ⟨_, by decide, by decide, rfl⟩, rfl, rfl⟩

/-! ## The rows of the prefixes -/

theorem isPrefixRow_eq_false_of_wf {i : Instr} (h : i.wf = true) : isPrefixRow i = false := by
  cases hi : isPrefixRow i with
  | false => rfl
  | true =>
    cases i with
    | prefixCB | prefixED | prefixDD | prefixFD | prefixXYCB => exact Bool.noConfusion h
    | _ => exact Bool.noConfusion hi

/-- A table holds none of the prefixes' rows: there `runTableEntry` would leave T as it was, where the row runs an entry of
its own. -/
theorem isPrefixRow_eq_false_of_runTableEntry {j : Instr} (h : ∀ s, runTableEntry j s = exec j s) :
    isPrefixRow j = false := by
  cases j with
  | prefixCB | prefixED | prefixDD | prefixFD | prefixXYCB =>
    exact nomatch congrArg State.t (Host.Outcome.next.inj (h State.reset))
  | _ => rfl

theorem fetch_congr {s u : State} (hpc : u.pc = s.pc) (hmem : u.mem = s.mem) (k : Nat) : u.fetch k = s.fetch k := by
  rw [State.fetch, hpc, readByte_congr hmem, ← State.fetch]

/-- Running the entry `f` selects, where PC and memory alone decide which it is and running it is running that row. -/
theorem runTableEntry_as_row {s : State} (f : State → Instr)
    (hf : ∀ u : State, u.pc = s.pc → u.mem = s.mem → f u = f s)
    (ht : ∀ v, runTableEntry (f s) v = exec (f s) v) :
    ∃ j, isPrefixRow j = false ∧ ∀ u : State, u.pc = s.pc → u.mem = s.mem → runTableEntry (f u) u = exec j u :=
  ⟨f s, isPrefixRow_eq_false_of_runTableEntry ht, fun u hpc hmem => by rw [hf u hpc hmem, ht]⟩

/-- A row of the prefixes runs as one of the others, and which one PC and memory decide (log 9). -/
theorem exec_prefixRow (i : Instr) (hi : isPrefixRow i = true) (s : State) :
    ∃ j, isPrefixRow j = false ∧ ∀ u : State, u.pc = s.pc → u.mem = s.mem → exec i u = exec j u := by
  cases i with
  | prefixCB =>
    exact runTableEntry_as_row (fun u => decodeCB (u.fetch 1)) (fun u hpc hmem => by simp only [fetch_congr hpc hmem])
      (runTableEntry_decodeCB _)
  | prefixED =>
    exact runTableEntry_as_row (fun u => decodeED (u.fetch 1) (u.fetch 2) (u.fetch 3))
      (fun u hpc hmem => by simp only [fetch_congr hpc hmem]) (runTableEntry_decodeED _ _ _)
  | prefixDD =>
    exact runTableEntry_as_row (fun u => decodeXY .ix (u.fetch 1) (u.fetch 2) (u.fetch 3))
      (fun u hpc hmem => by simp only [fetch_congr hpc hmem]) (runTableEntry_decodeXY _ _ _ _)
  | prefixFD =>
    exact runTableEntry_as_row (fun u => decodeXY .iy (u.fetch 1) (u.fetch 2) (u.fetch 3))
      (fun u hpc hmem => by simp only [fetch_congr hpc hmem]) (runTableEntry_decodeXY _ _ _ _)
  | prefixXYCB x =>
    exact runTableEntry_as_row (fun u => decodeXYCB x (u.fetch 2) (u.fetch 3))
      (fun u hpc hmem => by simp only [fetch_congr hpc hmem]) (runTableEntry_decodeXYCB _ _ _)
  | _ => exact Bool.noConfusion hi

/-! ## Time (rules R31, R354, R396) -/

theorem exec_time {i : Instr} {s t : State} (h : exec i s = .next t) : s.t + 4 ≤ t.t ∧ t.t ≤ s.t + 23 := by
  obtain ⟨j, hj, hij⟩ : ∃ j, isPrefixRow j = false ∧ exec i s = exec j s := by
    cases hi : isPrefixRow i with
    | false => exact ⟨i, hi, rfl⟩
    | true =>
      obtain ⟨j, hj, hu⟩ := exec_prefixRow i hi s
      exact ⟨j, hj, hu s rfl rfl⟩
  obtain ⟨t', ht', hl⟩ := exec_leaves j s hj
  cases (hij.symm.trans h).symm.trans ht'
  obtain ⟨n, h4, h23, hn⟩ := hl.time
  omega

theorem takeInterrupt_t (s : State) : s.takeInterrupt.t = s.t + (if s.im = .im2 then 19 else 13) := by
  rw [takeInterrupt_eq]

theorem acceptanceCheck_time (s : State) : s.t ≤ s.acceptanceCheck.t ∧ s.acceptanceCheck.t ≤ s.t + 19 := by
  unfold State.acceptanceCheck
  split
  · rw [takeInterrupt_t]
    split <;> omega
  · omega

/-- Settles O11: 4 to 23 for the instruction, and 0, 13 or 19 for the acceptance check. -/
theorem timeAdvances : Obligations.TimeAdvances := by
  refine ⟨fun i s t h => exec_time h, fun s t h => ?_⟩
  obtain ⟨u, hu, rfl⟩ := step_eq_next h
  have h1 := exec_time hu
  have h2 := acceptanceCheck_time u
  omega

/-! ## Who writes what (rules R23, R26, R28, R30, R32, R33, R63) -/

section Writers

variable {i : Instr} {s t : State}

theorem writesI_eq_false (h : i ≠ .ldIA) : writesI i = false := by
  unfold writesI
  split
  · exact absurd rfl h
  · rfl

theorem writesIM_eq_false (h : ∀ y, i ≠ .im0 y ∧ i ≠ .im1 y ∧ i ≠ .im2 y) : writesIM i = false := by
  unfold writesIM
  split
  · exact absurd rfl (h _).1
  · exact absurd rfl (h _).2.1
  · exact absurd rfl (h _).2.2
  · rfl

theorem writesIFF_eq_false (h : i ≠ .ei) (h' : i ≠ .di) : writesIFF i = false := by
  unfold writesIFF
  split
  · exact absurd rfl h
  · exact absurd rfl h'
  · rfl

theorem writesShadow_eq_false (h : i ≠ .exAfAf) (h' : i ≠ .exx) : writesShadow i = false := by
  unfold writesShadow
  split
  · exact absurd rfl h
  · exact absurd rfl h'
  · rfl

theorem Framed.i_kept (h : Framed i s t) (hi : writesI i = false) : t.i = s.i := by
  simpa [hi] using congrArg State.i h

theorem Framed.im_kept (h : Framed i s t) (hi : writesIM i = false) : t.im = s.im := by
  simpa [hi] using congrArg State.im h

theorem Framed.iff_kept (h : Framed i s t) (hi : writesIFF i = false) : t.iff = s.iff := by
  simpa [hi] using congrArg State.iff h

theorem Framed.shadow_kept (h : Framed i s t) (hi : writesShadow i = false) : t.shadow = s.shadow := by
  simpa [hi] using congrArg State.shadow h

theorem Framed.sp_kept (h : Framed i s t) (hi : i.mayWriteSP = false) : t.sp = s.sp := by
  simpa [hi] using congrArg State.sp h

theorem Framed.half_kept (h : Framed i s t) (hi : i.mayWriteXY = false) (x : XY) (k : Half) :
    t.half x k = s.half x k := by
  have := congrArg (State.half · x k) h
  cases x <;> cases k <;> simpa [State.half, hi] using this

theorem Framed.xy_kept (h : Framed i s t) (hi : i.mayWriteXY = false) (x : XY) : t.xy x = s.xy x := by
  rw [xy_eq_pair, xy_eq_pair, h.half_kept hi, h.half_kept hi]

theorem Framed.readPort_kept (h : Framed i s t) (hi : i.readsPort = false) :
    t.readPort = s.readPort ∧ t.portReads = s.portReads :=
  ⟨by simpa [hi] using congrArg State.readPort h, by simpa [hi] using congrArg State.portReads h⟩

theorem Framed.portWrites_kept (h : Framed i s t) (hi : i.writesPort = false) : t.portWrites = s.portWrites := by
  simpa [hi] using congrArg State.portWrites h

theorem leaves_of_exec (hi : i.wf = true) (h : exec i s = .next t) : Leaves i s t := by
  obtain ⟨t', ht', hl⟩ := exec_leaves i s (isPrefixRow_eq_false_of_wf hi)
  cases h.symm.trans ht'
  exact hl

end Writers

/-- Settles O12, clause by clause from the frame of `exec_leaves`. -/
theorem onlyTheNamedInstructionsWrite : Obligations.OnlyTheNamedInstructionsWrite := by
  intro i s t hi h
  have hf := (leaves_of_exec hi h).frame
  exact ⟨fun h => hf.i_kept (writesI_eq_false h), fun h => hf.im_kept (writesIM_eq_false h),
    fun h h' => hf.iff_kept (writesIFF_eq_false h h'), fun h h' => hf.shadow_kept (writesShadow_eq_false h h'), hf.sp_kept,
    hf.xy_kept, hf.readPort_kept, hf.portWrites_kept⟩

/-! ## LAST (rule R34) -/

theorem lastAfter_eq_ei (i : Instr) (pc0 pc : Word) : lastAfter i pc0 pc = .ei ↔ i = .ei := by
  unfold lastAfter
  split
  · simp
  · simp
  · split <;> simp
  · next hei _ _ => exact iff_of_false nofun hei

theorem lastAfter_eq_lonePrefix (i : Instr) (pc0 pc : Word) :
    lastAfter i pc0 pc = .lonePrefix ↔ ∃ x, i = .lonePrefix x := by
  unfold lastAfter
  split
  · simp
  · simp
  · split <;> simp
  · next _ hlone _ => exact iff_of_false nofun fun ⟨x, hx⟩ => hlone x hx

theorem lastAfter_eq_halted (i : Instr) (pc0 pc : Word) : lastAfter i pc0 pc = .halted ↔ i = .halt ∧ pc = pc0 := by
  unfold lastAfter
  split
  · simp
  · simp
  · split <;> simp [*]
  · next _ _ hhalt => exact iff_of_false nofun fun h => hhalt h.1

/-- Settles O14: LAST is `lastAfter`. -/
theorem lastAfterAnInstruction : Obligations.LastAfterAnInstruction := by
  intro i s t hi h
  rw [(leaves_of_exec hi h).last]
  exact ⟨lastAfter_eq_ei i _ _, lastAfter_eq_lonePrefix i _ _, lastAfter_eq_halted i _ _⟩

/-! ## The fast-path switches (rules R40, R397) -/

/-- The same state with other values of the two switches. -/
def State.withFast (s : State) (a b : Bool) : State := { s with cfg := { s.cfg with fastDjnz := a, fastLdir := b } }

/-- An outcome with its next state, if it is one, changed. -/
def mapNext (f : State → State) : Out → Out
  | .next s => .next (f s)
  | .fault r => .fault r
  | .refused r => .refused r

/-- The outcome `o'` is `o` but for the switches. -/
def SameButFast (a b : Bool) (o o' : Out) : Prop := o' = mapNext (·.withFast a b) o

section Switches

variable (s : State) (a b : Bool)

theorem prologue_withFast (n : Nat) : (s.withFast a b).prologue n = (s.prologue n).withFast a b := rfl

theorem setResReg_withFast (r : Reg8) (x : Byte × Byte) :
    (s.withFast a b).setResReg r x = (s.setResReg r x).withFast a b := rfl

theorem writeByte_withFast (p : Word) (v : Byte) :
    (s.withFast a b).writeByte p v = (s.writeByte p v).withFast a b := by
  unfold State.writeByte
  split <;> rfl

theorem writeWord_withFast (p v : Word) : (s.withFast a b).writeWord p v = (s.writeWord p v).withFast a b := by
  rw [State.writeWord, writeByte_withFast, writeByte_withFast, State.writeWord]

theorem push16_withFast (v : Word) : (s.withFast a b).push16 v = (s.push16 v).withFast a b :=
  writeWord_withFast (s.setSP (s.sp - 2)) a b _ v

theorem portRead_withFast (p : Word) :
    (s.withFast a b).portRead p = ((s.portRead p).1, (s.portRead p).2.withFast a b) := by
  unfold State.portRead
  have h : (s.withFast a b).readPort = s.readPort := rfl
  rw [h]
  split <;> rfl

theorem ldStep_withFast (δ : Word) :
    ((s.withFast a b).prologue 2).ldStep δ = ((s.prologue 2).ldStep δ).withFast a b := by
  rw [ldStep_eq, ldStep_eq, writeByte_withFast]
  rfl

theorem cpStep_withFast (δ : Word) :
    ((s.withFast a b).prologue 2).cpStep δ = ((s.prologue 2).cpStep δ).withFast a b := by
  rw [cpStep_eq, cpStep_eq]
  rfl

theorem inStep_withFast (δ : Word) :
    ((s.withFast a b).prologue 2).inStep δ = ((s.prologue 2).inStep δ).withFast a b := by
  rw [inStep_eq, inStep_eq, portRead_withFast, writeByte_withFast]
  rfl

theorem outStep_withFast (δ : Word) :
    ((s.withFast a b).prologue 2).outStep δ = ((s.prologue 2).outStep δ).withFast a b := rfl

variable {s a b} {u u' : State}

theorem SameButFast.finish (h : u' = u.withFast a b) (p : Word) (n : Nat) :
    SameButFast a b (u.finish p n) (u'.finish p n) := by
  rw [h]
  rfl

theorem SameButFast.endSeq (h : u' = u.withFast a b) (len n : Nat) :
    SameButFast a b (u.endSeq len n) (u'.endSeq len n) := by
  rw [h]
  rfl

theorem SameButFast.branch {c : Bool} {o₁ o₂ o₁' o₂' : Out}
    (h₁ : SameButFast a b o₁ o₁') (h₂ : SameButFast a b o₂ o₂') :
    SameButFast a b (if c then o₁ else o₂) (if c then o₁' else o₂') := by
  cases c
  · exact h₂
  · exact h₁

/-- Whether a repeating form goes again is a test `f` of the state its step has left, which is blind to the switches. -/
theorem SameButFast.repeatOrEnd (h : u' = u.withFast a b) (f : State → Bool) (hf : f (u.withFast a b) = f u) :
    SameButFast a b (u.repeatOrEnd (f u)) (u'.repeatOrEnd (f u')) := by
  rw [h, hf]
  exact .branch rfl rfl

end Switches

theorem exec_withFast_of_not_prefixRow (i : Instr) (s : State) (a b : Bool) (hi : isPrefixRow i = false) :
    SameButFast a b (exec i s) (exec i (s.withFast a b)) := by
  cases i with
  | prefixCB | prefixED | prefixDD | prefixFD | prefixXYCB => exact Bool.noConfusion hi
  | halt | jpCcNn | jrCc | djnz | retCc => exact .branch rfl rfl
  | callCcNn => exact .branch (.finish (push16_withFast _ a b _) _ _) rfl
  | callNn | rst => exact .finish (push16_withFast _ a b _) _ _
  | pushRp p => cases p <;> exact .endSeq (push16_withFast _ a b _) _ _
  | pushXY x => cases x <;> exact .endSeq (push16_withFast _ a b _) _ _
  | ldIndA | ldAtHLR | ldAtHLN | ldAtNnA | ldAtXYR | ldAtXYN | rld | rrd
  | rlcAtHL | rrcAtHL | rlAtHL | rrAtHL | slaAtHL | sraAtHL | sllAtHL | srlAtHL | resAtHL | setAtHL
  | rlcAtXY | rrcAtXY | rlAtXY | rrAtXY | slaAtXY | sraAtXY | sllAtXY | srlAtXY | resAtXY | setAtXY =>
    refine .endSeq ?_ _ _
    rw [prologue_withFast, writeByte_withFast]
    rfl
  | rlcAtXYR | rrcAtXYR | rlAtXYR | rrAtXYR | slaAtXYR | sraAtXYR | sllAtXYR | srlAtXYR | resAtXYR | setAtXYR =>
    refine .endSeq ?_ _ _
    rw [prologue_withFast, writeByte_withFast, setResReg_withFast]
    rfl
  | incAtHL | decAtHL | incAtXY | decAtXY =>
    refine .endSeq ?_ _ _
    rw [prologue_withFast, State.setResMem, writeByte_withFast]
    rfl
  | ldAtNnHL | ldAtNnRp | ldAtNnXY | exSPHL =>
    refine .endSeq ?_ _ _
    rw [prologue_withFast, writeWord_withFast]
    rfl
  | exSPXY x =>
    refine .endSeq ?_ _ _
    rw [prologue_withFast, writeWord_withFast]
    cases x <;> rfl
  | ldi | ldd => exact .endSeq (ldStep_withFast s a b _) _ _
  | ldir | lddr => exact .repeatOrEnd (ldStep_withFast s a b _) (·.bc != 0) rfl
  | cpi | cpd => exact .endSeq (cpStep_withFast s a b _) _ _
  | cpir | cpdr => 
    exact .repeatOrEnd (cpStep_withFast s a b _) (fun v => v.bc != 0 && v.main.a != s.readByte s.hl) rfl
  | ini | ind => exact .endSeq (inStep_withFast s a b _) _ _
  | inir | indr => exact .repeatOrEnd (inStep_withFast s a b _) (·.main.b != 0) rfl
  | outi | outd => exact .endSeq (outStep_withFast s a b _) _ _
  | otir | otdr => exact .repeatOrEnd (outStep_withFast s a b _) (·.main.b != 0) rfl
  | inAN | inRC | inFC =>
    refine .endSeq ?_ _ _
    rw [prologue_withFast, portRead_withFast]
    rfl
  | ldRpNn p | incRp p | decRp p | ldRpAtNn p | popRp p => cases p <;> rfl
  | ldXYNn x | ldXYAtNn x | incXY x | decXY x | addXYRp x | popXY x => cases x <;> rfl
  | incXYH x h | decXYH x h | ldXYHN x h | ldXYHR x h | ldXYHXYH x h => cases x <;> cases h <;> rfl
  | _ => rfl

theorem exec_withFast (i : Instr) (s : State) (a b : Bool) :
    SameButFast a b (exec i s) (exec i (s.withFast a b)) := by
  cases hi : isPrefixRow i with
  | false => exact exec_withFast_of_not_prefixRow i s a b hi
  | true =>
    obtain ⟨j, hj, hu⟩ := exec_prefixRow i hi s
    rw [hu s rfl rfl, hu (s.withFast a b) rfl rfl]
    exact exec_withFast_of_not_prefixRow j s a b hj

theorem takeInterrupt_withFast (s : State) (a b : Bool) :
    (s.withFast a b).takeInterrupt = s.takeInterrupt.withFast a b := by
  rw [takeInterrupt_eq, takeInterrupt_eq, writeWord_withFast, push16_withFast]
  rfl

theorem acceptanceCheck_withFast (s : State) (a b : Bool) :
    (s.withFast a b).acceptanceCheck = s.acceptanceCheck.withFast a b := by
  have h : (s.withFast a b).accepts = s.accepts := rfl
  rw [State.acceptanceCheck, State.acceptanceCheck, h]
  split
  · exact takeInterrupt_withFast s a b
  · rfl

theorem acceptanceCheck_cfg (s : State) : s.acceptanceCheck.cfg = s.cfg := by
  unfold State.acceptanceCheck
  split
  · rw [takeInterrupt_eq]
  · rfl

theorem step_withFast {s t : State} (a b : Bool) (h : step s = .next t) :
    step (s.withFast a b) = .next (t.withFast a b) := by
  obtain ⟨u, hu, rfl⟩ := step_eq_next h
  have hf : (s.withFast a b).fetchInstr = s.fetchInstr := rfl
  have he : exec s.fetchInstr (s.withFast a b) = .next (u.withFast a b) :=
    (exec_withFast _ s a b).trans (congrArg _ hu)
  rw [step, hf, he, ← acceptanceCheck_withFast]

/-- Settles O17: the instruction and the acceptance check keep the configuration (`exec_completes`), and neither reads the
switches (`exec_withFast`). -/
theorem configurationIsNotState : Obligations.ConfigurationIsNotState := by
  refine ⟨fun s t h => ?_, fun s t a b h => step_withFast a b h⟩
  obtain ⟨u, hu, rfl⟩ := step_eq_next h
  obtain ⟨u', hu', heff⟩ := exec_completes s.fetchInstr s
  cases hu.symm.trans hu'
  rw [acceptanceCheck_cfg, heff.cfg]

end Sys2Proof.Machine

/-! # The family of 20_memory.md

No store reaches ROM, whatever stores; bytes and words; the ports; the interrupted repeat. Last the step: an instruction
that the encoder has written decodes to itself (`decodeFront_encode`), so the instruction at PC is the one whose bytes
stand there. -/

namespace Sys2Proof.Machine

/-! ## No store reaches ROM (rule R51) -/

theorem AtMostOneStore.rom_kept {s : State} {m : Memory} (h : AtMostOneStore s m) (hs : s.mem.wf = true) {a : Word}
    (ha : a.toNat ≤ 0x3FFF) : m.get a.toNat = s.readByte a := by
  cases h with
  | none => rfl
  | byte b v => exact State.writeByte_rom hs b v ha
  | word b v => exact State.writeWord_rom hs b v ha

/-- The acceptance check stores at most the return address (R354). -/
theorem atMostOneStore_acceptanceCheck (s : State) : AtMostOneStore s s.acceptanceCheck.mem := by
  unfold State.acceptanceCheck
  split
  · rw [takeInterrupt_eq]
    exact .word _ _
  · exact .none

theorem effect_of_exec {i : Instr} {s t : State} (h : exec i s = .next t) : Effect i s t := by
  obtain ⟨t', ht', heff⟩ := exec_completes i s
  cases h.symm.trans ht'
  exact heff

/-- Settles O10: an instruction and the acceptance check each store at most once, through the ROM check. -/
theorem romNeverChanges : Obligations.RomNeverChanges := by
  intro s hs
  refine ⟨fun i t h a ha => (effect_of_exec h).mem.rom_kept hs ha,
    fun a ha => (atMostOneStore_acceptanceCheck s).rom_kept hs ha, fun t h a ha => ?_⟩
  obtain ⟨u, hu, rfl⟩ := step_eq_next h
  have hmem := (effect_of_exec hu).mem
  calc u.acceptanceCheck.readByte a
    _ = u.readByte a := (atMostOneStore_acceptanceCheck u).rom_kept (hmem.wf hs) ha
    _ = s.readByte a := hmem.rom_kept hs ha

/-! ## Bytes and words (rules R50 to R56) -/

/-- Settles O19: `State.readByte_writeByte` and `Memory.ext_word` in the statement's words. -/
theorem readAfterWrite : Obligations.ReadAfterWrite := by
  refine ⟨fun s a v hs => ⟨fun b => ?_, writeByte_eq s a v, State.writeByte_mem_wf hs a v⟩, fun m n => Memory.ext_word⟩
  simp only [State.readByte_writeByte hs, Nat.not_le]

/-- A word stored at 0xFFFF has its high byte at 0x0000, which is ROM (R54, R56). -/
theorem writeWord_top {s : State} (hs : s.mem.wf = true) (v : Word) :
    (s.writeWord 0xFFFF v).readByte 0xFFFF = v.setWidth 8 ∧ (s.writeWord 0xFFFF v).readByte 0 = s.readByte 0 :=
  ⟨(storedWord_of_mem hs rfl).low, State.writeWord_rom hs _ _ (by decide)⟩

/-- Settles O20, clause by clause. -/
theorem wordsAreLittleEndianAndWrap : Obligations.WordsAreLittleEndianAndWrap :=
  ⟨wordAt_readWord, fun _ _ _ hs => storedWord_of_mem hs rfl, fun _ v hs => writeWord_top hs v, ea_spec⟩

/-! ## The ports (rules R64 to R66) -/

/-- A port read and then the main registers made `g` of what they were. -/
theorem portRead_end (s : State) (n len ts : Nat) (p : Word) (g : RegSet → RegSet) :
    ∃ t, State.endSeq { ((s.prologue n).portRead p).2 with main := g ((s.prologue n).portRead p).2.main } len ts
        = .next t ∧
      Bookkept s t n ts (s.pc + BitVec.ofNat 16 len) ∧ PortGave s t p ((s.prologue n).portRead p).1 ∧
      t.main = g s.main ∧
      t = { s.clocked t with main := t.main, readPort := t.readPort, portReads := t.portReads } := by
  have hg := portRead_spec (s := s.prologue n) p rfl rfl
  rw [portRead_eq]
  exact ⟨_, rfl, bookkept_of rfl rfl rfl rfl, hg, rfl, rfl⟩

theorem portWrite_end (s : State) (n len ts : Nat) (p : Word) (v : Byte) :
    ∃ t, ((s.prologue n).portWrite p v).endSeq len ts = .next t ∧ Bookkept s t n ts (s.pc + BitVec.ofNat 16 len) ∧
      t = { s.clocked t with portWrites := s.portWrites ++ [⟨p, v⟩] } :=
  ⟨_, rfl, bookkept_of rfl rfl rfl rfl, rfl⟩

theorem RegSet.get_with_f (g : RegSet) (f : Byte) (k : Reg8) : RegSet.get { g with f := f } k = g.get k := by
  cases k <;> rfl

/-- Settles O47: a port read with the main registers updated, or one event added to the history. -/
theorem portInputAndOutput : Obligations.PortInputAndOutput := by
  refine fun s => ⟨fun n => ?inAN, fun r => ?inRC, ?inFC, fun n => ?outNA,
    fun r => portWrite_end s 2 2 12 s.bc (s.reg r), portWrite_end s 2 2 12 s.bc 0⟩
  case inAN =>
    obtain ⟨t, ht, hbook, hgave, hmain, hframe⟩ := portRead_end s 1 2 11 (pair s.main.a n)
      fun g => g.set .a ((s.prologue 1).portRead (pair s.main.a n)).1
    exact ⟨t, _, _, ht, hbook, pair_toNat _ _, hgave, hmain, hframe⟩
  case inRC =>
    obtain ⟨t, ht, hbook, hgave, hmain, hframe⟩ := portRead_end s 2 2 12 s.bc fun g =>
      { g.set r ((s.prologue 2).portRead s.bc).1 with f := inF ((s.prologue 2).portRead s.bc).1 s.main.f }
    refine ⟨t, _, ht, hbook, hgave, ?_, fun k hk => ?_, ?_, hframe⟩
    · rw [State.reg, hmain, RegSet.get_with_f, RegSet.get_set_same]
    · rw [State.reg, hmain, RegSet.get_with_f, RegSet.get_set_other _ _ hk, State.reg]
    · rw [hmain]
      exact inF_flags _ _
  case inFC =>
    obtain ⟨t, ht, hbook, hgave, hmain, hframe⟩ := portRead_end s 2 2 12 s.bc fun g =>
      { g with f := inF ((s.prologue 2).portRead s.bc).1 s.main.f }
    have hf : t.main.f = inF ((s.prologue 2).portRead s.bc).1 s.main.f := congrArg RegSet.f hmain
    rw [hmain, ← hf] at hframe
    exact ⟨t, _, ht, hbook, hgave, hf ▸ inF_flags _ _, hframe⟩
  case outNA =>
    obtain ⟨t, ht, hbook, hframe⟩ := portWrite_end s 1 2 11 (pair s.main.a n) s.main.a
    exact ⟨t, _, ht, hbook, pair_toNat _ _, hframe⟩

/-! ## An interrupted repeat (rules R276, R354, R362) -/

/-- No repeating instruction is EI, one of the lone prefixes or HALT. -/
theorem lastAfter_repeating {i : Instr} (h : i.repeating = true) (pc0 pc : Word) : lastAfter i pc0 pc = .other := by
  cases i with
  | ei | lonePrefix | halt => exact Bool.noConfusion h
  | _ => rfl

theorem wf_of_repeating {i : Instr} (h : i.repeating = true) : i.wf = true := by
  cases i with
  | jrCc | retn | im0 | im1 | im2 | nopEDMid | ldRXYH | ldXYHR | prefixCB | prefixED | prefixDD | prefixFD
  | prefixXYCB =>
    exact Bool.noConfusion h
  | _ => rfl

/-- Settles O57: the repeating instruction leaves LAST = OTHER, so the return address is PC, which is its own. -/
theorem interruptedRepeatPushesItsAddress : Obligations.InterruptedRepeatPushesItsAddress := by
  intro i s t hi hs h hpc hmay
  have hacc := acceptanceCheck_accepts ((effect_of_exec h).mem.wf hs) hmay
  have hlast : t.last ≠ .halted := by
    rw [(leaves_of_exec (wf_of_repeating hi) h).last, lastAfter_repeating hi]
    nofun
  have hpushed := hacc.pushed
  rw [if_neg hlast, hpc] at hpushed
  exact ⟨hacc, hpushed⟩

end Sys2Proof.Machine

namespace Sys2Proof

open Machine

/-! ## Decoding what the encoder gave (rules R80 to R101) -/

section Fields

variable (x : BitVec 2) (y z : BitVec 3)

theorem fieldX_opXYZ : fieldX (opXYZ x y z) = x := by
  revert x y z
  decide

theorem fieldY_opXYZ : fieldY (opXYZ x y z) = y := by
  revert x y z
  decide

theorem fieldZ_opXYZ : fieldZ (opXYZ x y z) = z := by
  revert x y z
  decide

theorem fieldX_append (w : BitVec 6) : fieldX (x ++ w) = x := by
  revert x w
  decide

theorem low6_append (w : BitVec 6) : (x ++ w).extractLsb' 0 6 = w := by
  revert x w
  decide

theorem Reg8.ofCode_code (r : Reg8) : Reg8.ofCode r.code = some r := by cases r <;> rfl

theorem Half.ofCode_regCode (h : Half) : Half.ofCode h.regCode = some h := by cases h <;> rfl

end Fields

section Tables

variable {op : Byte} (x : XY) (y z : BitVec 3) (r s : Reg8) (h : Half) (d b1 b2 b3 : Byte)

theorem decode4_eq_decodeMain (h : op ∉ ([0xCB, 0xED, 0xDD, 0xFD] : List Byte)) :
    decode4 op b1 b2 b3 = decodeMain op b1 b2 := by
  have hne : ∀ b ∈ ([0xCB, 0xED, 0xDD, 0xFD] : List Byte), (op == b) ≠ true := fun b hb he => h (eq_of_beq he ▸ hb)
  unfold decode4
  iterate 4 rw [if_neg (hne _ (by decide))]

/-- The bytes of the four prefixes stand in the last quarter of the main table, and not in the column of RST. -/
theorem opXYZ_not_prefix {x : BitVec 2} (h : x ≠ 3 ∨ z = 7) : opXYZ x y z ∉ ([0xCB, 0xED, 0xDD, 0xFD] : List Byte) := by
  revert x y z
  decide

theorem decode4_code : decode4 x.code b1 b2 b3 = decodeXY x b1 b2 b3 := by cases x <;> rfl

theorem decode4_ldRR : decode4 (opXYZ 1 r.code s.code) b1 b2 b3 = .ldRR r s := by
  rw [decode4_eq_decodeMain _ _ _ (opXYZ_not_prefix _ _ (.inl (by decide))), decodeMain, fieldX_opXYZ, decodeMain1,
    fieldY_opXYZ, fieldZ_opXYZ, Reg8.ofCode_code, Reg8.ofCode_code]
  rfl

theorem decode4_aluReg : decode4 (opXYZ 2 y r.code) b1 b2 b3 = aluReg y r := by
  rw [decode4_eq_decodeMain _ _ _ (opXYZ_not_prefix _ _ (.inl (by decide))), decodeMain, fieldX_opXYZ, fieldY_opXYZ,
    fieldZ_opXYZ, Reg8.ofCode_code]
  rfl

theorem decode4_rst : decode4 (opXYZ 3 y 7) b1 b2 b3 = .rst y := by
  rw [decode4_eq_decodeMain _ _ _ (opXYZ_not_prefix _ _ (.inr rfl)), decodeMain, fieldX_opXYZ, decodeMain3,
    fieldY_opXYZ, fieldZ_opXYZ]
  rfl

theorem decodeCB_rotReg : decodeCB (opXYZ 0 y r.code) = rotReg y r := by
  rw [decodeCB, fieldX_opXYZ, fieldY_opXYZ, fieldZ_opXYZ, Reg8.ofCode_code]
  rfl

theorem decodeED_opXYZ : decodeED (opXYZ 1 y z) b2 b3 = decodeED1 (opXYZ 1 y z) b2 b3 := by
  rw [decodeED, fieldX_opXYZ]
  rfl

/-- The no-ops 80 to BF are the third quarter of the ED table without the sixteen block instructions (R339). -/
theorem decodeED_nopEDMid {w : BitVec 6} (hi : (Instr.nopEDMid w).wf = true) :
    decodeED (2#2 ++ w) b2 b3 = .nopEDMid w := by
  rw [decodeED, fieldX_append]
  change decodeED2 (2#2 ++ w) = _
  revert w
  decide

theorem decodeXYCB_rotAtXYR : decodeXYCB x d (opXYZ 0 y r.code) = rotAtXYR x d y r := by
  rw [decodeXYCB, fieldX_opXYZ, fieldY_opXYZ, fieldZ_opXYZ, Reg8.ofCode_code]
  rfl

theorem decodeXY_aluHalf : decodeXY x (opXYZ 2 y h.regCode) b2 b3 = aluHalf x y h := by
  rw [decodeXY, fieldX_opXYZ, fieldY_opXYZ, fieldZ_opXYZ, Half.ofCode_regCode]
  cases h <;> rfl

end Tables

/-! ### The lone prefixes (rules R89, R90) -/

section LonePrefix

variable {op : Byte} (x : XY) (b2 b3 : Byte)

/-- Outside INDEX_SET, z = 4, 5, 6 of the first quarter name neither (XY+d) nor a half. -/
theorem fieldY_of_not_mem_indexSet (hx : fieldX op = 0) (h : op ∉ indexSet)
    (hz : fieldZ op = 4 ∨ fieldZ op = 5 ∨ fieldZ op = 6) : fieldY op ≠ 6 ∧ Half.ofCode (fieldY op) = none := by
  revert op
  decide

/-- Outside INDEX_SET, the second quarter names (HL) twice or not at all, and no half. -/
theorem operands_of_not_mem_indexSet (hx : fieldX op = 1) (h : op ∉ indexSet) :
    (Reg8.ofCode (fieldY op) = none ↔ Reg8.ofCode (fieldZ op) = none) ∧ Half.ofCode (fieldY op) = none ∧
      Half.ofCode (fieldZ op) = none := by
  revert op
  decide

/-- Outside INDEX_SET, the third quarter names neither (HL) nor a half. -/
theorem fieldZ_of_not_mem_indexSet (hx : fieldX op = 2) (h : op ∉ indexSet) :
    fieldZ op ≠ 6 ∧ Half.ofCode (fieldZ op) = none := by
  revert op
  decide

theorem decodeXY0_of_not_mem_indexSet (hx : fieldX op = 0) (h : op ∉ indexSet) :
    decodeXY0 x op b2 b3 = .lonePrefix x := by
  unfold decodeXY0
  simp only []
  split
  case h_4 hz | h_5 hz | h_6 hz =>
    obtain ⟨h6, hk⟩ := fieldY_of_not_mem_indexSet hx h (by simp [hz])
    rw [hk]
    split
    · contradiction
    · contradiction
    · rfl
  all_goals
    repeat' split
    any_goals rfl
    all_goals
      exfalso
      revert op
      decide

theorem decodeXY1_of_not_mem_indexSet (hx : fieldX op = 1) (h : op ∉ indexSet) :
    decodeXY1 x op b2 = .lonePrefix x := by
  obtain ⟨hr, hy, hz⟩ := operands_of_not_mem_indexSet hx h
  simp only [decodeXY1, hy, hz]
  cases h1 : Reg8.ofCode (fieldY op) <;> cases h2 : Reg8.ofCode (fieldZ op) <;> simp [h1, h2] at hr ⊢

theorem decodeXY_of_not_mem_indexSet (h : op ∉ indexSet) : decodeXY x op b2 b3 = .lonePrefix x := by
  unfold decodeXY
  split
  · next hx => exact decodeXY0_of_not_mem_indexSet x b2 b3 hx h
  · next hx => exact decodeXY1_of_not_mem_indexSet x b2 hx h
  · next hx =>
    obtain ⟨h6, hk⟩ := fieldZ_of_not_mem_indexSet hx h
    rw [hk]
    split
    · contradiction
    · contradiction
    · rfl
  · have hne : ∀ b ∈ indexSet, (op == b) ≠ true := fun b hb he => h (eq_of_beq he ▸ hb)
    iterate 6 rw [if_neg (hne _ (by decide))]

end LonePrefix

/-! ### The round trip -/

/-- The instruction at the front of four bytes or more, as `State.fetchInstr` and `decode` read it. -/
def decodeFront : List Byte → Instr
  | b0 :: b1 :: b2 :: b3 :: _ => decode4 b0 b1 b2 b3
  | _ => .nop

/-- An encoded instruction decodes to itself whatever three bytes stand after it, if a lone DD or FD has a byte outside
INDEX_SET there. The rows in turn: without a selector; with one that is an enumeration; with an address; with a bit-vector
field, where the table is read at the fields of its byte. -/
theorem decodeFront_encode (i : Instr) (c0 c1 c2 : Byte) (hi : i.wf = true)
    (hl : ∀ x, i = .lonePrefix x → c0 ∉ indexSet) : decodeFront (encode i ++ [c0, c1, c2]) = i := by
  cases i with
  | prefixCB | prefixED | prefixDD | prefixFD | prefixXYCB => exact Bool.noConfusion hi
  | nop | incAtHL | decAtHL | ldAtHLN | rlca | rrca | rla | rra | daa | cpl | scf | ccf | exAfAf | djnz | jr
  | halt | addAAtHL | addAN | adcAAtHL | adcAN | subAtHL | subN | sbcAAtHL | sbcAN | andAtHL | andN | xorAtHL
  | xorN | orAtHL | orN | cpAtHL | cpN | outNA | inAN | exSPHL | exDEHL | di | ei | ret | exx | jpHL | ldSPHL
  | rlcAtHL | rrcAtHL | rlAtHL | rrAtHL | slaAtHL | sraAtHL | sllAtHL | srlAtHL | inFC | outC0 | reti | ldIA
  | ldRA | ldAI | ldAR | rrd | rld | nopED77 | nopED7F | ldi | cpi | ini | outi | ldd | cpd | ind | outd | ldir
  | cpir | inir | otir | lddr | cpdr | indr | otdr =>
    rfl
  | ldIndA o | incRp o | incR o | decR o | ldRN o | addHLRp o | ldAInd o | decRp o | ldRAtHL o | ldAtHLR o
  | retCc o | popRp o | pushRp o | inRC o | outCR o | sbcHLRp o | adcHLRp o | incXY o | decXY o | incAtXY o
  | decAtXY o | ldAtXYN o | addAAtXY o | adcAAtXY o | subAtXY o | sbcAAtXY o | andAtXY o | xorAtXY o | orAtXY o
  | cpAtXY o | popXY o | exSPXY o | pushXY o | jpXY o | ldSPXY o | rlcAtXY o | rrcAtXY o | rlAtXY o | rrAtXY o
  | slaAtXY o | sraAtXY o | sllAtXY o | srlAtXY o =>
    cases o <;> rfl
  | addXYRp x p | incXYH x p | decXYH x p | ldXYHN x p | ldRAtXY x p | ldAtXYR x p =>
    cases x <;> cases p <;> rfl
  | ldXYHXYH x h k => cases x <;> cases h <;> cases k <;> rfl
  | jrCc cc =>
    cases cc with
    | nz | z | nc | c => rfl
    | po | pe | p | m => exact Bool.noConfusion hi
  | ldRXYH x r h | ldXYHR x h r =>
    cases r with
    | h | l => exact Bool.noConfusion hi
    | b | c | d | e | a => cases x <;> cases h <;> rfl
  | ldAtNnHL nn => exact congrArg Instr.ldAtNnHL (pair_hi_lo nn)
  | ldHLAtNn nn => exact congrArg Instr.ldHLAtNn (pair_hi_lo nn)
  | ldAtNnA nn => exact congrArg Instr.ldAtNnA (pair_hi_lo nn)
  | ldAAtNn nn => exact congrArg Instr.ldAAtNn (pair_hi_lo nn)
  | jpNn nn => exact congrArg Instr.jpNn (pair_hi_lo nn)
  | callNn nn => exact congrArg Instr.callNn (pair_hi_lo nn)
  | ldRpNn p nn => cases p <;> exact congrArg (Instr.ldRpNn _) (pair_hi_lo nn)
  | ldAtNnRp p nn => cases p <;> exact congrArg (Instr.ldAtNnRp _) (pair_hi_lo nn)
  | ldRpAtNn p nn => cases p <;> exact congrArg (Instr.ldRpAtNn _) (pair_hi_lo nn)
  | jpCcNn cc nn => cases cc <;> exact congrArg (Instr.jpCcNn _) (pair_hi_lo nn)
  | callCcNn cc nn => cases cc <;> exact congrArg (Instr.callCcNn _) (pair_hi_lo nn)
  | ldXYNn x nn => cases x <;> exact congrArg (Instr.ldXYNn _) (pair_hi_lo nn)
  | ldAtNnXY x nn => cases x <;> exact congrArg (Instr.ldAtNnXY _) (pair_hi_lo nn)
  | ldXYAtNn x nn => cases x <;> exact congrArg (Instr.ldXYAtNn _) (pair_hi_lo nn)
  | ldRR r s => exact decode4_ldRR r s _ _ _
  | rst y => exact decode4_rst y _ _ _
  | addAR r | adcAR r | subR r | sbcAR r | andR r | xorR r | orR r | cpR r => exact decode4_aluReg _ r _ _ _
  | rlcR r | rrcR r | rlR r | rrR r | slaR r | sraR r | sllR r | srlR r => exact decodeCB_rotReg _ r
  | bitR b r | resR b r | setR b r =>
    change decodeCB (opXYZ _ b r.code) = _
    rw [decodeCB, fieldX_opXYZ, fieldY_opXYZ, fieldZ_opXYZ, Reg8.ofCode_code]
    rfl
  | bitAtHL b | resAtHL b | setAtHL b =>
    change decodeCB (opXYZ _ b 6) = _
    rw [decodeCB, fieldX_opXYZ, fieldY_opXYZ, fieldZ_opXYZ]
    rfl
  | neg y =>
    refine (decodeED_opXYZ ..).trans ?_
    rw [decodeED1, fieldZ_opXYZ, fieldY_opXYZ]
    rfl
  | retn y =>
    refine (decodeED_opXYZ ..).trans ?_
    rw [decodeED1, fieldZ_opXYZ, fieldY_opXYZ]
    exact if_neg (bne_iff_ne.mp hi ∘ eq_of_beq)
  | im0 y | im1 y | im2 y =>
    refine (decodeED_opXYZ ..).trans ?_
    clear hl
    simp only [decodeED1, fieldY_opXYZ, fieldZ_opXYZ, BitVec.ofNat_eq_ofNat]
    revert y
    decide
  | nopEDLow w | nopEDHigh w =>
    change decodeED (_ ++ w) _ _ = _
    rw [decodeED, fieldX_append, low6_append]
    rfl
  | nopEDMid w => exact decodeED_nopEDMid _ _ hi
  | addAXYH x h | adcAXYH x h | subXYH x h | sbcAXYH x h | andXYH x h | xorXYH x h | orXYH x h | cpXYH x h =>
    exact (decode4_code ..).trans (decodeXY_aluHalf ..)
  | lonePrefix x => exact (decode4_code ..).trans (decodeXY_of_not_mem_indexSet _ _ _ (hl x rfl))
  | rlcAtXYR x d r | rrcAtXYR x d r | rlAtXYR x d r | rrAtXYR x d r | slaAtXYR x d r | sraAtXYR x d r
  | sllAtXYR x d r | srlAtXYR x d r =>
    exact (decode4_code ..).trans (decodeXYCB_rotAtXYR ..)
  | bitAtXY x d b z =>
    refine (decode4_code ..).trans ?_
    change decodeXYCB x d (opXYZ 1 b z) = _
    rw [decodeXYCB, fieldX_opXYZ, fieldY_opXYZ, fieldZ_opXYZ]
    rfl
  | resAtXY x d b | setAtXY x d b =>
    refine (decode4_code ..).trans ?_
    change decodeXYCB x d (opXYZ _ b 6) = _
    rw [decodeXYCB, fieldX_opXYZ, fieldY_opXYZ, fieldZ_opXYZ]
    rfl
  | resAtXYR x d b r | setAtXYR x d b r =>
    refine (decode4_code ..).trans ?_
    change decodeXYCB x d (opXYZ _ b r.code) = _
    rw [decodeXYCB, fieldX_opXYZ, fieldY_opXYZ, fieldZ_opXYZ, Reg8.ofCode_code]
    rfl

theorem length_encode (i : Instr) : (encode i).length = i.length := by cases i <;> rfl

theorem Instr.length_pos (i : Instr) : 0 < i.length := by cases i <;> exact Nat.succ_pos _

theorem decodeFront_of_getElem? {bs : List Byte} {f : Nat → Byte} (h : ∀ k, k < 4 → bs[k]? = some (f k)) :
    decodeFront bs = decode4 (f 0) (f 1) (f 2) (f 3) := by
  match bs, h 3 (by decide) with
  | b0 :: b1 :: b2 :: b3 :: _, h3 =>
    cases h 0 (by decide)
    cases h 1 (by decide)
    cases h 2 (by decide)
    cases h3
    rfl

/-- Where the bytes from `f 0` on are those of a well-formed instruction, they decode to it. -/
theorem decode4_of_encode {i : Instr} {f : Nat → Byte} (hi : i.wf = true)
    (hb : ∀ k, k < i.length → (encode i)[k]? = some (f k)) (hl : ∀ x, i = .lonePrefix x → f 1 ∉ indexSet) :
    decode4 (f 0) (f 1) (f 2) (f 3) = i := by
  have hlen := length_encode i
  have hpos := i.length_pos
  rw [← decodeFront_of_getElem? (bs := encode i ++ [f i.length, f (i.length + 1), f (i.length + 2)]) fun k hk => ?_]
  · refine decodeFront_encode i _ _ _ hi fun x hx => ?_
    subst hx
    exact hl x rfl
  · by_cases hki : k < i.length
    · rw [List.getElem?_append_left (by omega), hb k hki]
    · obtain ⟨j, rfl⟩ := Nat.exists_eq_add_of_le (Nat.le_of_not_lt hki)
      have hj : j = 0 ∨ j = 1 ∨ j = 2 := by omega
      rw [List.getElem?_append_right (by omega), hlen, Nat.add_sub_cancel_left]
      obtain rfl | rfl | rfl := hj <;> rfl

end Sys2Proof

namespace Sys2Proof.Machine

/-- Settles O5: the instruction at PC is the one encoded there (`decode4_of_encode`), and `step` runs it. -/
theorem stepRunsTheDecodedInstruction : Obligations.StepRunsTheDecodedInstruction := by
  intro i s hi hb hl
  have hfetch : s.fetchInstr = i := decode4_of_encode (f := s.fetch) hi hb hl
  refine ⟨fun t h => ?_, fun r h => ?_, fun r h => ?_⟩ <;> rw [step, hfetch, h]

end Sys2Proof.Machine

/-! # The family of 30_encoding.md

Every four bytes begin with a well-formed instruction, the one `decode4` reads there (`standsAt_decode4`, table by
table); with `decode4_of_encode`, the other direction, that settles the round trips. Then what every instruction leaves
of R and PC (`exec_counts`). -/

namespace Sys2Proof

open Machine

/-! ## The bytes a decoded instruction stands in (rules R82 to R101) -/

/-- The four bytes begin with the well-formed instruction `i`, a lone DD or FD before a byte outside INDEX_SET (R90). -/
structure StandsAt (b0 b1 b2 b3 : Byte) (i : Instr) : Prop where
  wf : i.wf = true
  bytes : encode i <+: [b0, b1, b2, b3]
  lone : ∀ x, i = .lonePrefix x → b1 ∉ indexSet

/-! A field is split by its values, `v0` and on; the cases name the columns (z) and rows (y) of a table. -/

theorem twoBits {motive : BitVec 2 → Prop} (v0 : motive 0) (v1 : motive 1) (v2 : motive 2) (v3 : motive 3)
    (x : BitVec 2) : motive x := by
  have h : x = 0 ∨ x = 1 ∨ x = 2 ∨ x = 3 := by
    revert x
    decide
  obtain rfl | rfl | rfl | rfl := h <;> assumption

theorem threeBits {motive : BitVec 3 → Prop} (v0 : motive 0) (v1 : motive 1) (v2 : motive 2) (v3 : motive 3)
    (v4 : motive 4) (v5 : motive 5) (v6 : motive 6) (v7 : motive 7) (y : BitVec 3) : motive y := by
  have h : y = 0 ∨ y = 1 ∨ y = 2 ∨ y = 3 ∨ y = 4 ∨ y = 5 ∨ y = 6 ∨ y = 7 := by
    revert y
    decide
  obtain rfl | rfl | rfl | rfl | rfl | rfl | rfl | rfl := h <;> assumption

theorem exists_eq_opXYZ (op : Byte) : ∃ x y z, op = opXYZ x y z := by
  refine ⟨fieldX op, fieldY op, fieldZ op, ?_⟩
  revert op
  decide

theorem append_low6_opXYZ (x : BitVec 2) (y z : BitVec 3) : x ++ (opXYZ x y z).extractLsb' 0 6 = opXYZ x y z := by
  revert x y z
  decide

section StandsAt

variable (xy : XY) (y z : BitVec 3) (b0 b1 b2 b3 : Byte)

/-- The bytes of a word operand, low one first (R87), after one opcode byte. -/
theorem word_front : [b0, loByte (pair b2 b1), hiByte (pair b2 b1)] <+: [b0, b1, b2, b3] := by
  rw [loByte_pair, hiByte_pair]
  exact ⟨_, rfl⟩

/-- The same after the byte that selects a table and an opcode byte. -/
theorem word_front_after_table : [b0, b1, loByte (pair b3 b2), hiByte (pair b3 b2)] <+: [b0, b1, b2, b3] := by
  rw [loByte_pair, hiByte_pair]

/-- The quarter 00 to 3F, column by column: words stand in the columns of `LD rp,nn` and `LD (nn)`. -/
theorem standsAt_decodeMain0 : StandsAt (opXYZ 0 y z) b1 b2 b3 (decodeMain0 (opXYZ 0 y z) b1 b2) := by
  cases z using threeBits with
  | v0 | v3 | v4 | v5 | v6 | v7 => cases y using threeBits <;> exact ⟨rfl, ⟨_, rfl⟩, nofun⟩
  | v1 =>
    cases y using threeBits with
    | v0 | v2 | v4 | v6 => exact ⟨rfl, word_front .., nofun⟩
    | v1 | v3 | v5 | v7 => exact ⟨rfl, ⟨_, rfl⟩, nofun⟩
  | v2 =>
    cases y using threeBits with
    | v0 | v1 | v2 | v3 => exact ⟨rfl, ⟨_, rfl⟩, nofun⟩
    | v4 | v5 | v6 | v7 => exact ⟨rfl, word_front .., nofun⟩

theorem standsAt_decodeMain1 : StandsAt (opXYZ 1 y z) b1 b2 b3 (decodeMain1 (opXYZ 1 y z)) := by
  cases y using threeBits <;> cases z using threeBits <;> exact ⟨rfl, ⟨_, rfl⟩, nofun⟩

variable {y z} in
/-- The quarter C0 to FF: words stand with the jumps and calls, and four bytes are the prefixes. -/
theorem standsAt_decodeMain3 (h : opXYZ 3 y z ∉ ([0xCB, 0xED, 0xDD, 0xFD] : List Byte)) :
    StandsAt (opXYZ 3 y z) b1 b2 b3 (decodeMain3 (opXYZ 3 y z) b1 b2) := by
  cases z using threeBits with
  | v0 | v1 | v6 | v7 => cases y using threeBits <;> exact ⟨rfl, ⟨_, rfl⟩, nofun⟩
  | v2 | v4 => cases y using threeBits <;> exact ⟨rfl, word_front .., nofun⟩
  | v3 =>
    cases y using threeBits with
    | v0 => exact ⟨rfl, word_front .., nofun⟩
    | v1 => exact absurd (by decide) h
    | v2 | v3 | v4 | v5 | v6 | v7 => exact ⟨rfl, ⟨_, rfl⟩, nofun⟩
  | v5 =>
    cases y using threeBits with
    | v0 | v2 | v4 | v6 => exact ⟨rfl, ⟨_, rfl⟩, nofun⟩
    | v1 => exact ⟨rfl, word_front .., nofun⟩
    | v3 | v5 | v7 => exact absurd (by decide) h

theorem standsAt_decodeMain (h : b0 ∉ ([0xCB, 0xED, 0xDD, 0xFD] : List Byte)) :
    StandsAt b0 b1 b2 b3 (decodeMain b0 b1 b2) := by
  obtain ⟨x, y, z, rfl⟩ := exists_eq_opXYZ b0
  rw [decodeMain, fieldX_opXYZ]
  cases x using twoBits with
  | v0 => exact standsAt_decodeMain0 ..
  | v1 => exact standsAt_decodeMain1 ..
  | v2 => cases y using threeBits <;> cases z using threeBits <;> exact ⟨rfl, ⟨_, rfl⟩, nofun⟩
  | v3 => exact standsAt_decodeMain3 _ _ _ h

theorem standsAt_decodeCB : StandsAt 0xCB b1 b2 b3 (decodeCB b1) := by
  obtain ⟨x, y, z, rfl⟩ := exists_eq_opXYZ b1
  rw [decodeCB, fieldX_opXYZ, fieldY_opXYZ, fieldZ_opXYZ]
  cases x using twoBits with
  | v0 => cases y using threeBits <;> cases z using threeBits <;> exact ⟨rfl, ⟨_, rfl⟩, nofun⟩
  | v1 | v2 | v3 => cases z using threeBits <;> exact ⟨rfl, ⟨_, rfl⟩, nofun⟩

theorem standsAt_decodeED1 : StandsAt 0xED (opXYZ 1 y z) b2 b3 (decodeED1 (opXYZ 1 y z) b2 b3) := by
  cases z using threeBits with
  | v3 => cases y using threeBits <;> exact ⟨rfl, word_front_after_table .., nofun⟩
  | _ => cases y using threeBits <;> exact ⟨rfl, ⟨_, rfl⟩, nofun⟩

theorem standsAt_decodeED : StandsAt 0xED b1 b2 b3 (decodeED b1 b2 b3) := by
  obtain ⟨x, y, z, rfl⟩ := exists_eq_opXYZ b1
  rw [decodeED, fieldX_opXYZ]
  cases x using twoBits with
  | v0 | v3 => exact ⟨rfl, ⟨[b2, b3], congrArg ([0xED, ·, b2, b3]) (append_low6_opXYZ _ y z)⟩, nofun⟩
  | v1 => exact standsAt_decodeED1 ..
  | v2 => cases y using threeBits <;> cases z using threeBits <;> exact ⟨rfl, ⟨_, rfl⟩, nofun⟩

variable {y z} in
/-- Of each column of the quarter 00 to 3F, the rows INDEX_SET has (R89). -/
theorem standsAt_decodeXY0 (h : opXYZ 0 y z ∈ indexSet) :
    StandsAt xy.code (opXYZ 0 y z) b2 b3 (decodeXY0 xy (opXYZ 0 y z) b2 b3) := by
  cases z using threeBits with
  | v0 | v7 =>
    exfalso
    revert y
    decide
  | v1 =>
    obtain rfl | rfl | rfl | rfl | rfl : y = 4 ∨ y = 1 ∨ y = 3 ∨ y = 5 ∨ y = 7 := by
      revert y
      decide
    · exact ⟨rfl, word_front_after_table .., nofun⟩
    all_goals exact ⟨rfl, ⟨_, rfl⟩, nofun⟩
  | v2 =>
    obtain rfl | rfl : y = 4 ∨ y = 5 := by
      revert y
      decide
    all_goals exact ⟨rfl, word_front_after_table .., nofun⟩
  | v3 =>
    obtain rfl | rfl : y = 4 ∨ y = 5 := by
      revert y
      decide
    all_goals exact ⟨rfl, ⟨_, rfl⟩, nofun⟩
  | v4 | v5 | v6 =>
    obtain rfl | rfl | rfl : y = 4 ∨ y = 5 ∨ y = 6 := by
      revert y
      decide
    all_goals exact ⟨rfl, ⟨_, rfl⟩, nofun⟩

variable {y z} in
/-- Of the quarter 40 to 7F, INDEX_SET has the columns of H, L and (HL) but for HALT's place, and of the other columns the
rows of H, L and (HL) (R89). -/
theorem standsAt_decodeXY1 (h : opXYZ 1 y z ∈ indexSet) :
    StandsAt xy.code (opXYZ 1 y z) b2 b3 (decodeXY1 xy (opXYZ 1 y z) b2) := by
  cases z using threeBits with
  | v4 | v5 => cases y using threeBits <;> exact ⟨rfl, ⟨_, rfl⟩, nofun⟩
  | v6 =>
    cases y using threeBits with
    | v6 => exact absurd h (by decide)
    | _ => exact ⟨rfl, ⟨_, rfl⟩, nofun⟩
  | _ =>
    obtain rfl | rfl | rfl : y = 4 ∨ y = 5 ∨ y = 6 := by
      revert y
      decide
    all_goals exact ⟨rfl, ⟨_, rfl⟩, nofun⟩

theorem standsAt_decodeXYCB : StandsAt xy.code 0xCB b2 b3 (decodeXYCB xy b2 b3) := by
  obtain ⟨x, y, z, rfl⟩ := exists_eq_opXYZ b3
  rw [decodeXYCB, fieldX_opXYZ, fieldY_opXYZ, fieldZ_opXYZ]
  cases x using twoBits with
  | v0 => cases y using threeBits <;> cases z using threeBits <;> exact ⟨rfl, ⟨_, rfl⟩, nofun⟩
  | v1 => exact ⟨rfl, ⟨_, rfl⟩, nofun⟩
  | v2 | v3 => cases z using threeBits <;> exact ⟨rfl, ⟨_, rfl⟩, nofun⟩

variable {b1} in
theorem standsAt_decodeXY_of_mem_indexSet (h : b1 ∈ indexSet) :
    StandsAt xy.code b1 b2 b3 (decodeXY xy b1 b2 b3) := by
  obtain ⟨x, y, z, rfl⟩ := exists_eq_opXYZ b1
  rw [decodeXY, fieldX_opXYZ]
  cases x using twoBits with
  | v0 => exact standsAt_decodeXY0 _ _ _ h
  | v1 => exact standsAt_decodeXY1 _ _ _ h
  | v2 =>
    cases z using threeBits with
    | v4 | v5 | v6 => cases y using threeBits <;> exact ⟨rfl, ⟨_, rfl⟩, nofun⟩
    | _ =>
      exfalso
      revert y
      decide
  | v3 =>
    cases z using threeBits with
    | v1 =>
      obtain rfl | rfl | rfl : y = 4 ∨ y = 5 ∨ y = 7 := by
        revert y
        decide
      all_goals exact ⟨rfl, ⟨_, rfl⟩, nofun⟩
    | v3 =>
      obtain rfl | rfl : y = 1 ∨ y = 4 := by
        revert y
        decide
      · exact standsAt_decodeXYCB ..
      · exact ⟨rfl, ⟨_, rfl⟩, nofun⟩
    | v5 =>
      obtain rfl : y = 4 := by
        revert y
        decide
      exact ⟨rfl, ⟨_, rfl⟩, nofun⟩
    | _ =>
      exfalso
      revert y
      decide

theorem standsAt_decodeXY : StandsAt xy.code b1 b2 b3 (decodeXY xy b1 b2 b3) := by
  by_cases h : b1 ∈ indexSet
  · exact standsAt_decodeXY_of_mem_indexSet _ _ _ h
  · rw [decodeXY_of_not_mem_indexSet _ _ _ h]
    exact ⟨rfl, ⟨_, rfl⟩, fun _ _ => h⟩

/-- The instruction `decode4` gives stands in the bytes it was given. -/
theorem standsAt_decode4 : StandsAt b0 b1 b2 b3 (decode4 b0 b1 b2 b3) := by
  by_cases h : b0 ∈ ([0xCB, 0xED, 0xDD, 0xFD] : List Byte)
  · simp only [List.mem_cons, List.not_mem_nil, or_false] at h
    obtain rfl | rfl | rfl | rfl := h
    · exact standsAt_decodeCB ..
    · exact standsAt_decodeED ..
    · exact standsAt_decodeXY .ix ..
    · exact standsAt_decodeXY .iy ..
  · rw [decode4_eq_decodeMain _ _ _ h]
    exact standsAt_decodeMain _ _ _ _ h

end StandsAt

/-! ### The round trips of `decode` -/

/-- `decode` on a list with a first byte, where a DD or FD has a byte after it and the list holds the instruction. -/
theorem decode_cons {b0 : Byte} {bs : List Byte} {i : Instr}
    (hi : decode4 b0 (bs.getD 0 0) (bs.getD 1 0) (bs.getD 2 0) = i)
    (hp : isXYPrefix b0 = true → bs ≠ []) (hl : i.length ≤ (b0 :: bs).length) :
    decode (b0 :: bs) = .ok (i, (b0 :: bs).drop i.length) := by
  have hc : ¬ (isXYPrefix b0 && bs.isEmpty) = true := fun h => by
    rw [Bool.and_eq_true, List.isEmpty_iff] at h
    exact hp h.1 h.2
  rw [decode, if_neg hc]
  simp only [hi, if_pos hl]

/-- A DD or FD with nothing after it would be a lone one: `decode` reads zeros past the end. -/
theorem exists_lonePrefix_of_isXYPrefix {b0 : Byte} (h : isXYPrefix b0 = true) :
    ∃ x, decode4 b0 0 0 0 = .lonePrefix x := by
  rw [isXYPrefix, Bool.or_eq_true, beq_iff_eq, beq_iff_eq] at h
  obtain rfl | rfl := h
  · exact ⟨.ix, rfl⟩
  · exact ⟨.iy, rfl⟩

/-- The bytes of an encoded instruction and the bytes after it, zeros after the last, decode to the instruction. -/
theorem decode4_encode_append {i : Instr} {rest : List Byte} (hi : i.wf = true)
    (hlone : ∀ x, i = .lonePrefix x → ∃ b tail, rest = b :: tail ∧ b ∉ indexSet) :
    decode4 ((encode i ++ rest).getD 0 0) ((encode i ++ rest).getD 1 0) ((encode i ++ rest).getD 2 0)
      ((encode i ++ rest).getD 3 0) = i := by
  refine decode4_of_encode (f := fun k => (encode i ++ rest).getD k 0) hi (fun k hk => ?_) fun x hx => ?_
  · rw [← length_encode] at hk
    simp [hk, List.getElem?_append_left]
  · obtain ⟨b, tail, rfl, hb⟩ := hlone x hx
    subst hx
    exact hb

/-- Settles O1: `decode` reads the instruction of `decode4_encode_append`; a DD or FD that ended the list would be a lone
one, and that has a byte after it. -/
theorem decodeOfEncode : Obligations.DecodeOfEncode := by
  intro i rest hi hlone
  have hd := decode4_encode_append hi hlone
  have hlen : i.length ≤ (encode i ++ rest).length := by simp [length_encode]
  have hrest : (encode i ++ rest).drop i.length = rest := List.drop_left' (length_encode i)
  obtain ⟨b0, bs, hbs⟩ := List.exists_cons_of_length_pos (i.length_pos.trans_le hlen)
  rw [hbs] at hd hlen hrest
  have hp : isXYPrefix b0 = true → bs ≠ [] := by
    rintro hp rfl
    obtain ⟨x, hx⟩ := exists_lonePrefix_of_isXYPrefix hp
    obtain rfl := hd.symm.trans hx
    obtain ⟨b, tail, rfl, -⟩ := hlone x rfl
    exact nomatch hbs
  rw [hbs, decode_cons (b0 := b0) hd hp hlen, hrest]

/-- Settles O2: the decoded instruction stands in its bytes, so its encoding is the first of them. -/
theorem encodeOfDecode : Obligations.EncodeOfDecode := by
  intro b0 b1 b2 b3
  rw [← length_encode]
  exact ⟨List.prefix_iff_eq_take.mp (standsAt_decode4 b0 b1 b2 b3).bytes, rfl⟩

/-- Four bytes hold any instruction (R82). -/
theorem decode_of_four (b0 b1 b2 b3 : Byte) (rest : List Byte) :
    ∃ i tail, decode (b0 :: b1 :: b2 :: b3 :: rest) = .ok (i, tail) ∧ i = decode4 b0 b1 b2 b3 := by
  have hlen := (standsAt_decode4 b0 b1 b2 b3).bytes.length_le
  rw [length_encode] at hlen
  exact ⟨_, _, decode_cons rfl nofun (hlen.trans (by simp)), rfl⟩

theorem decodeXY_eq_lonePrefix_iff (x : XY) (b1 b2 b3 : Byte) :
    decodeXY x b1 b2 b3 = .lonePrefix x ↔ b1 ∉ indexSet :=
  ⟨(standsAt_decodeXY x b1 b2 b3).lone x, decodeXY_of_not_mem_indexSet x b2 b3⟩

theorem eq_code_of_decode4_eq_lonePrefix {b0 b1 b2 b3 : Byte} {x : XY} (h : decode4 b0 b1 b2 b3 = .lonePrefix x) :
    b0 = x.code := by
  have hb := (standsAt_decode4 b0 b1 b2 b3).bytes
  rw [h] at hb
  exact (List.cons_prefix_cons.mp hb).1.symm

/-- Settles O3, clause by clause: the decoded instruction stands in its bytes (`standsAt_decode4`), and a byte outside
INDEX_SET leaves DD and FD alone. -/
theorem everyByteSequenceDecodes : Obligations.EveryByteSequenceDecodes :=
  ⟨fun b0 b1 b2 b3 => (standsAt_decode4 b0 b1 b2 b3).wf, decode_of_four, rfl, by decide,
    decodeXY_eq_lonePrefix_iff .ix, decodeXY_eq_lonePrefix_iff .iy, fun _ _ _ _ _ => eq_code_of_decode4_eq_lonePrefix⟩

/-- Settles O4, by evaluation of the decoder on each word. -/
theorem sampleWordsDecode : Obligations.SampleWordsDecode :=
  ⟨rfl, rfl, rfl, rfl, rfl, rfl, rfl, rfl, rfl, rfl, rfl, rfl, rfl, rfl, rfl, rfl⟩

end Sys2Proof

namespace Sys2Proof.Machine

/-! ## What an instruction leaves of R and PC (rules R84, R85) -/

/-- By how much the row `i` counts R (R84). -/
def refreshes (i : Instr) : Nat := if i.prefixed then 2 else 1

/-- The rows of the DD/FD tables with more than their first byte (R84). -/
theorem refreshes_of_code (x : XY) {i : Instr} {b : Byte} {bs : List Byte} (h : encode i = x.code :: b :: bs) :
    refreshes i = 2 := by
  unfold refreshes Instr.prefixed
  rw [h]
  cases x <;> rfl

/-- The outcome `o` of `i` is a next state, with R counted unless `i` is `LD R,A` and PC past `i` unless `i` sets PC. -/
def Counts (i : Instr) (s : State) (o : Out) : Prop :=
  ∃ t, o = .next t ∧ (i ≠ .ldRA → t.r = (s.incR (refreshes i)).r) ∧
    (i.setsPC = false → t.pc = s.pc + BitVec.ofNat 16 i.length)

section Ends

variable {i : Instr} {s u : State} {ts : Nat}

theorem Counts.endSeq (n : Nat) (hn : refreshes i = n) (hr : u.r = (s.incR n).r) (hpc : u.pc = s.pc) :
    Counts i s (u.endSeq i.length ts) :=
  ⟨_, rfl, fun _ => hn ▸ hr, fun _ => congrArg (· + BitVec.ofNat 16 i.length) hpc⟩

theorem Counts.finish {a : Word} (n : Nat) (hn : refreshes i = n) (hr : u.r = (s.incR n).r) (hi : i.setsPC = true) :
    Counts i s (u.finish a ts) :=
  ⟨_, rfl, fun _ => hn ▸ hr, fun h => nomatch hi.symm.trans h⟩

theorem Counts.branch {c : Bool} {o o' : Out} (h : Counts i s o) (h' : Counts i s o') :
    Counts i s (if c then o else o') := by
  cases c
  · exact h'
  · exact h

theorem Counts.repeatOrEnd {again : Bool} (hn : refreshes i = 2) (hr : u.r = (s.incR 2).r) (hi : i.setsPC = true) :
    Counts i s (u.repeatOrEnd again) :=
  .branch (.finish 2 hn hr hi) (.finish 2 hn hr hi)

end Ends

/-- Every row but the five prefixes, by its end: a branch, PC set, a block step; then PC past the row, by how its bytes
tell the count of R and by whether its operation is one record. -/
theorem exec_counts (i : Instr) (s : State) (hi : isPrefixRow i = false) : Counts i s (exec i s) := by
  cases i with
  | prefixCB | prefixED | prefixDD | prefixFD | prefixXYCB => exact Bool.noConfusion hi
  | ldRA => exact ⟨_, rfl, fun h => absurd rfl h, fun _ => rfl⟩
  | halt | djnz | retCc => exact .branch (.finish 1 rfl rfl rfl) (.finish 1 rfl rfl rfl)
  | jrCc cc | jpCcNn cc => cases cc <;> exact .branch (.finish 1 rfl rfl rfl) (.finish 1 rfl rfl rfl)
  | callCcNn cc => cases cc <;> exact .branch (.finish 1 rfl (by simp) rfl) (.finish 1 rfl rfl rfl)
  | jr | jpNn | jpHL | ret => exact .finish 1 rfl rfl rfl
  | retn | reti => exact .finish 2 rfl rfl rfl
  | jpXY x => exact .finish 2 (refreshes_of_code x rfl) rfl rfl
  | callNn | rst => exact .finish 1 rfl (by simp) rfl
  | ldi | ldd => exact .endSeq 2 rfl (by rw [ldStep_eq]; rfl) (by rw [ldStep_eq]; rfl)
  | cpi | cpd => exact .endSeq 2 rfl (by rw [cpStep_eq]; rfl) (by rw [cpStep_eq]; rfl)
  | ini | ind => exact .endSeq 2 rfl (by rw [inStep_eq]; rfl) (by rw [inStep_eq]; rfl)
  | outi | outd => exact .endSeq 2 rfl (by rw [outStep_eq]; rfl) (by rw [outStep_eq]; rfl)
  | ldir | lddr => exact .repeatOrEnd rfl (by rw [ldStep_eq]; rfl) rfl
  | cpir | cpdr => exact .repeatOrEnd rfl (by rw [cpStep_eq]; rfl) rfl
  | inir | indr => exact .repeatOrEnd rfl (by rw [inStep_eq]; rfl) rfl
  | otir | otdr => exact .repeatOrEnd rfl (by rw [outStep_eq]; rfl) rfl
  | ldRpNn p => exact .endSeq 1 (by cases p <;> rfl) (by simp) (by simp)
  | ldRN r => exact .endSeq 1 (by cases r <;> rfl) (by simp) (by simp)
  | ldIndA | ldAtHLR | ldAtHLN | ldAtNnA | ldAtNnHL | incAtHL | decAtHL | incRp | decRp | popRp | pushRp | inAN
  | exSPHL =>
    exact .endSeq 1 rfl (by simp) (by simp)
  | rlcAtHL | rrcAtHL | rlAtHL | rrAtHL | slaAtHL | sraAtHL | sllAtHL | srlAtHL | resAtHL | setAtHL | rld | rrd
  | ldAtNnRp | ldRpAtNn | inRC | inFC =>
    exact .endSeq 2 rfl (by simp) (by simp)
  | addXYRp x | ldXYNn x | ldAtNnXY x | incXY x | incXYH x | decXYH x | ldXYHN x | ldXYAtNn x | decXY x | incAtXY x
  | decAtXY x | ldAtXYN x | ldXYHR x | ldXYHXYH x | ldAtXYR x | popXY x | exSPXY x | pushXY x | rlcAtXY x | rlcAtXYR x
  | rrcAtXY x | rrcAtXYR x | rlAtXY x | rlAtXYR x | rrAtXY x | rrAtXYR x | slaAtXY x | slaAtXYR x | sraAtXY x
  | sraAtXYR x | sllAtXY x | sllAtXYR x | srlAtXY x | srlAtXYR x | resAtXY x | resAtXYR x | setAtXY x | setAtXYR x =>
    exact .endSeq 2 (refreshes_of_code x rfl) (by simp) (by simp)
  | ldRXYH x | ldRAtXY x | addAXYH x | addAAtXY x | adcAXYH x | adcAAtXY x | subXYH x | subAtXY x | sbcAXYH x
  | sbcAAtXY x | andXYH x | andAtXY x | xorXYH x | xorAtXY x | orXYH x | orAtXY x | cpXYH x | cpAtXY x | ldSPXY x
  | bitAtXY x =>
    exact .endSeq 2 (refreshes_of_code x rfl) rfl rfl
  | _ => exact .endSeq _ rfl rfl rfl

theorem counts_of_exec {i : Instr} {s t : State} (hi : i.wf = true) (h : exec i s = .next t) :
    (i ≠ .ldRA → t.r = (s.incR (refreshes i)).r) ∧
      (i.setsPC = false → t.pc = s.pc + BitVec.ofNat 16 i.length) := by
  obtain ⟨t', ht', hc⟩ := exec_counts i s (isPrefixRow_eq_false_of_wf hi)
  cases h.symm.trans ht'
  exact hc

theorem CountedR.of_r {s t : State} {n : Nat} (h : t.r = (s.incR n).r) : CountedR s t n :=
  ⟨h ▸ (incR_counted s n).bit7, h ▸ (incR_counted s n).low7⟩

theorem takeInterrupt_r (s : State) : s.takeInterrupt.r = (s.incR 1).r := by
  rw [takeInterrupt_eq]

/-- Settles O15: R of an instruction by `exec_counts`, of the acceptance by `takeInterrupt_eq`. -/
theorem refreshCounter : Obligations.RefreshCounter := by
  refine ⟨fun i s t hi hne h => .of_r ((counts_of_exec hi h).1 hne), fun s hs => ?_⟩
  rw [State.acceptanceCheck, if_pos ((accepts_iff s).mpr hs)]
  exact .of_r (takeInterrupt_r s)

theorem word_add_ofNat_toNat (w : Word) (n : Nat) : (w + BitVec.ofNat 16 n).toNat = (w.toNat + n) % 65536 := by
  rw [BitVec.toNat_add, BitVec.toNat_ofNat, Nat.add_mod_mod]

/-- Settles O16: PC by `exec_counts`; an address is a sum of words, so it wraps. -/
theorem sequentialPC : Obligations.SequentialPC := by
  refine ⟨fun i s t hi hpc h => ?_, fun s k => ?_⟩
  · rw [(counts_of_exec hi h).2 hpc, word_add_ofNat_toNat]
  · rw [← word_add_ofNat_toNat, BitVec.ofNat_toNat, BitVec.setWidth_eq, State.fetch]

end Sys2Proof.Machine

/-! # The family of 40_flag_tables.md

The rows of R152 by their shape, each leaving F as it was; then DAA after an addition and after a subtraction, where the two
corrections of R137 are the decimal carries of the low and of the high digit. -/

namespace Sys2Proof.Machine

/-! ## What leaves F (rules R152, R320, R354) -/

/-- If the outcome `o` is a next state, its F is that of `s`. -/
def KeepsF (s : State) (o : Out) : Prop := ∀ t, o = .next t → t.main.f = s.main.f

section Ends

variable {s u : State}

theorem KeepsF.finish {a : Word} {ts : Nat} (h : u.main.f = s.main.f) : KeepsF s (u.finish a ts) := by
  intro t ht
  cases ht
  exact h

theorem KeepsF.endSeq {len ts : Nat} (h : u.main.f = s.main.f) : KeepsF s (u.endSeq len ts) := .finish h

theorem KeepsF.branch {c : Bool} {o o' : Out} (h : KeepsF s o) (h' : KeepsF s o') : KeepsF s (if c then o else o') := by
  cases c
  · exact h'
  · exact h

end Ends

/-- Loading a pair leaves F, unless it is AF (R176). -/
theorem setRp2_f (s : State) {p : StackPair} (v : Word) (hp : p ≠ .af) : (s.setRp2 p v).main.f = s.main.f := by
  cases p with
  | af => exact absurd rfl hp
  | bc | de | hl => rfl

theorem setRp_f (s : State) (p : RegPair) (v : Word) : (s.setRp p v).main.f = s.main.f := by cases p <;> rfl

/-- The rows of R152, by the shape of their meaning: a branch, PC set, a pair loaded, another update the laws of the state
speak of, an update that is one record without F, and RES and SET, which hand F back. -/
theorem exec_keepsF (i : Instr) (s : State) (hi : i.leavesF = true) : KeepsF s (exec i s) := by
  cases i with
  | halt | jpCcNn | jrCc | djnz | retCc => exact .branch (.finish rfl) (.finish rfl)
  | callCcNn => exact .branch (.finish (by simp)) (.finish rfl)
  | jr | jpNn | jpHL | jpXY | ret | retn | reti => exact .finish rfl
  | callNn | rst => exact .finish (by simp)
  | popRp p => exact .endSeq (setRp2_f _ _ (bne_iff_ne.mp hi))
  | ldRpNn p | incRp p | decRp p | ldRpAtNn p => exact .endSeq (setRp_f _ p _)
  | ldRR | ldRN | ldRAtHL | ldRXYH | ldRAtXY | inAN | ldXYHR | ldXYHXYH | ldXYHN | ldXYNn | ldXYAtNn | incXY | decXY
  | popXY | pushRp | pushXY | ldIndA | ldAtHLR | ldAtHLN | ldAtNnA | ldAtXYR | ldAtXYN | ldAtNnHL | ldAtNnRp | ldAtNnXY
  | exSPHL | exSPXY =>
    exact .endSeq (by simp)
  | ldAInd | ldAAtNn | ldHLAtNn | ldSPHL | ldSPXY | ldIA | ldRA | exDEHL | exx | outNA | outCR | outC0 | nop | di | ei
  | im0 | im1 | im2 | nopED77 | nopED7F | nopEDLow | nopEDHigh | nopEDMid | lonePrefix =>
    exact .endSeq rfl
  | resR | setR | resAtHL | setAtHL | resAtXY | setAtXY | resAtXYR | setAtXYR => exact .endSeq rfl
  | _ => exact Bool.noConfusion hi

theorem takeInterrupt_main (s : State) : s.takeInterrupt.main = s.main := by rw [takeInterrupt_eq]

theorem acceptanceCheck_main (s : State) : s.acceptanceCheck.main = s.main := by
  unfold State.acceptanceCheck
  split
  · exact takeInterrupt_main s
  · rfl

/-- Settles O13: the rows by `exec_keepsF`, EX AF,AF′ by the halves of the two pairs; the acceptance check writes no main
register. -/
theorem otherInstructionsLeaveF : Obligations.OtherInstructionsLeaveF := by
  refine ⟨fun i s t hi => exec_keepsF i s hi t, fun s t h => ?_, fun s => congrArg RegSet.f (acceptanceCheck_main s)⟩
  cases h
  exact ⟨loByte_pair _ _, loByte_pair _ _⟩

/-! ## Decimal arithmetic (rules R124, R125, R137, R213) -/

/-- `v` holds the number `x` in decimal digits. -/
def HoldsDecimal (v : Byte) (x : Nat) : Prop := v.toNat = x / 10 * 16 + x % 10

section Decimal

variable {a n : Byte} {x y : Nat} (hx : x < 100) (hy : y < 100) (ha : HoldsDecimal a x) (hn : HoldsDecimal n y)

include hx hy ha hn

/-- DAA after an addition: it adds 6 where the low digits carry and 96 where the numbers do. -/
theorem daa_add8 :
    HoldsDecimal (daa (add8 a n false).1 (add8 a n false).2).1 ((x + y) % 100) ∧
      (daa (add8 a n false).1 (add8 a n false).2).2.getLsbD 0 = decide (100 ≤ x + y) := by
  unfold HoldsDecimal at *
  have hs := add8_result a n false
  obtain ⟨-, -, -, hH, -, -, hN, hC⟩ := add8_flags a n false
  rw [Bool.toNat_false, Nat.add_zero] at hs hH hC
  have hlow : (decide (a.toNat % 16 + n.toNat % 16 > 15) = true ∨ 9 < (add8 a n false).1.toNat % 16) ↔
      10 ≤ x % 10 + y % 10 := by
    rw [decide_eq_true_eq]
    omega
  have hhigh : (decide (a.toNat + n.toNat > 255) = true ∨ 153 < (add8 a n false).1.toNat) ↔ 100 ≤ x + y := by
    rw [decide_eq_true_eq]
    omega
  constructor
  · rw [daa_result _ _ _ rfl, hH, hN, hC, if_congr hlow rfl rfl, if_congr hhigh rfl rfl, if_neg Bool.false_ne_true]
    split <;> split <;> omega
  · rw [(daa_flags _ _).bitC, hC, ← decide_eq_decide.mpr hhigh, Bool.decide_or, Bool.decide_eq_true]

/-- DAA after a subtraction: it takes 6 off where the low digits borrow and 96 where the numbers do. -/
theorem daa_sub8 :
    HoldsDecimal (daa (sub8 a n false).1 (sub8 a n false).2).1 ((100 + x - y) % 100) ∧
      (daa (sub8 a n false).1 (sub8 a n false).2).2.getLsbD 0 = decide (x < y) := by
  unfold HoldsDecimal at *
  have hs := sub8_result a n false
  obtain ⟨-, -, -, hH, -, -, hN, hC⟩ := sub8_flags a n false
  rw [Bool.toNat_false, Nat.add_zero] at hH hC
  rw [Bool.toNat_false, Int.ofNat_zero, Int.sub_zero] at hs
  have hlow : (decide (a.toNat % 16 < n.toNat % 16) = true ∨ 9 < (sub8 a n false).1.toNat % 16) ↔ x % 10 < y % 10 := by
    rw [decide_eq_true_eq]
    omega
  have hhigh : (decide (a.toNat < n.toNat) = true ∨ 153 < (sub8 a n false).1.toNat) ↔ x < y := by
    have hlt : a.toNat < n.toNat ↔ x < y := by omega
    rw [decide_eq_true_eq, hlt, or_iff_left_iff_imp]
    omega
  constructor
  · rw [daa_result _ _ _ rfl, hH, hN, hC, if_congr hlow rfl rfl, if_congr hhigh rfl rfl, if_pos rfl]
    split <;> split <;> omega
  · rw [(daa_flags _ _).bitC, hC, ← decide_eq_decide.mpr hhigh, Bool.decide_or, Bool.decide_eq_true]

end Decimal

/-- Settles O34: the two instructions are `add8` or `sub8` and then `daa` on A and F. -/
theorem decimalArithmetic : Obligations.DecimalArithmetic := by
  intro s t u n x y hx hy ha hn
  constructor
  · intro ht hu
    cases ht
    cases hu
    have h := daa_add8 hx hy ha hn
    rwa [HoldsDecimal, Nat.mod_mod_of_dvd (x + y) (by decide : 10 ∣ 100)] at h
  · intro ht hu
    cases ht
    cases hu
    have h := daa_sub8 hx hy ha hn
    rwa [HoldsDecimal, Nat.mod_mod_of_dvd (100 + x - y) (by decide : 10 ∣ 100)] at h

end Sys2Proof.Machine

/-! # The family of 41_load.md

Every load, store and push is one of the shapes of the laws (prologue, one update, end); the operand is read after the
prologue, which changes nothing that is read but R. The pops add the shape of a pair taken from the stack, and a pop undoes a
push by what each of them says of memory and of the pairs. -/

namespace Sys2Proof.Machine

/-! ## Bytes (rules R160 to R168, R181 to R185) -/

/-- Settles O22: one register or one half written, with an operand that the prologue leaves as it is. -/
theorem byteLoads : Obligations.ByteLoads := fun s =>
  ⟨fun r r' => setReg_end s 1 1 4 r (s.reg r'),
    fun r n => setReg_end s 1 2 7 r n,
    fun r => setReg_end s 1 1 7 r (s.readByte s.hl),
    setReg_end s 1 1 7 .a (s.readByte s.bc),
    setReg_end s 1 1 7 .a (s.readByte s.de),
    fun nn => setReg_end s 1 3 13 .a (s.readByte nn),
    fun x r h => half_prologue s 2 x h ▸ setReg_end s 2 2 8 r ((s.prologue 2).half x h),
    fun x r d => ea_prologue s 2 x d ▸ setReg_end s 2 3 19 r (s.readByte ((s.prologue 2).ea x d)),
    fun x h r => setHalf_end s 2 2 8 x h (s.reg r),
    fun x h k => half_prologue s 2 x k ▸ setHalf_end s 2 2 8 x h ((s.prologue 2).half x k),
    fun x h n => setHalf_end s 2 3 11 x h n⟩

/-- Settles O23: one byte stored through the ROM check, at an address that the prologue leaves as it is. -/
theorem byteStores : Obligations.ByteStores := fun s hs =>
  ⟨fun r => writeByte_end hs 1 1 7 s.hl (s.reg r),
    fun n => writeByte_end hs 1 2 10 s.hl n,
    writeByte_end hs 1 1 7 s.bc s.main.a,
    writeByte_end hs 1 1 7 s.de s.main.a,
    fun nn => writeByte_end hs 1 3 13 nn s.main.a,
    fun x r d => ea_prologue s 2 x d ▸ writeByte_end hs 2 3 19 ((s.prologue 2).ea x d) (s.reg r),
    fun x d n => ea_prologue s 2 x d ▸ writeByte_end hs 2 4 19 ((s.prologue 2).ea x d) n⟩

/-! ## Words (rules R169 to R175, R186 to R190) -/

/-- An outcome about the word that `readWord` gives is one about the little-endian word at the address (R54). -/
theorem exists_wordAt_of_readWord {s : State} {o : Out} {n ts : Nat} {pc a : Word} {loaded : State → Word → Prop}
    (h : ∃ t, o = .next t ∧ Bookkept s t n ts pc ∧ loaded t (s.readWord a)) :
    ∃ t w, o = .next t ∧ Bookkept s t n ts pc ∧ WordAt s a w ∧ loaded t w := by
  obtain ⟨t, ho, hb, hl⟩ := h
  exact ⟨t, s.readWord a, ho, hb, wordAt_readWord s a, hl⟩

/-- Settles O24: one pair or index register written, with an immediate, a register or the word at an address. -/
theorem wordLoads : Obligations.WordLoads := fun s =>
  ⟨fun p nn => setRp_end s 1 3 10 p nn,
    fun nn => exists_wordAt_of_readWord (setRp_end s 1 3 16 .hl (s.readWord nn)),
    fun p nn => exists_wordAt_of_readWord (setRp_end s 2 4 20 p (s.readWord nn)),
    setRp_end s 1 1 6 .sp s.hl,
    fun x nn => setXY_end s 2 4 14 x nn,
    fun x nn => exists_wordAt_of_readWord (setXY_end s 2 4 20 x (s.readWord nn)),
    fun x => xy_prologue s 2 x ▸ setRp_end s 2 2 10 .sp ((s.prologue 2).xy x)⟩

theorem pushRp_end {s : State} (hs : s.mem.wf = true) (p : StackPair) :
    ∃ t, exec (.pushRp p) s = .next t ∧ Bookkept s t 1 11 (s.pc + 1) ∧ Pushed s t (s.rp2 p) :=
  rp2_prologue s 1 p ▸ push16_end hs 1 1 11 ((s.prologue 1).rp2 p)

/-- Settles O25: one word stored at an address or at SP - 2, with a value that the prologue leaves as it is. -/
theorem wordStoresAndPushes : Obligations.WordStoresAndPushes := fun s hs =>
  ⟨fun nn => writeWord_end hs 1 3 16 nn s.hl,
    fun p nn => rp_prologue s 2 p ▸ writeWord_end hs 2 4 20 nn ((s.prologue 2).rp p),
    fun x nn => xy_prologue s 2 x ▸ writeWord_end hs 2 4 20 nn ((s.prologue 2).xy x),
    pushRp_end hs,
    fun x => xy_prologue s 2 x ▸ push16_end hs 2 2 15 ((s.prologue 2).xy x)⟩

/-! ## The pops (rules R58, R176, R191)

A pop writes SP and then the pair: it is a pair loaded from a state whose SP is 2 higher. -/

theorem rp2_congr {s t : State} (h : t.main = s.main) (p : StackPair) : t.rp2 p = s.rp2 p := by
  cases p <;> simp only [State.rp2, State.bc, State.de, State.hl, h]

theorem rp2_setRp2 (s : State) (p q : StackPair) (v : Word) :
    (s.setRp2 p v).rp2 q = if q = p then v else s.rp2 q := by
  cases p <;> cases q
  case bc.bc | de.de | hl.hl | af.af => exact pair_hi_lo v
  all_goals rfl

theorem setRp2_eq (s : State) (p : StackPair) (v : Word) : s.setRp2 p v = { s with main := (s.setRp2 p v).main } := by
  cases p <;> rfl

/-- Pair `p` took the value `v`; the other pairs and everything else are unchanged (`LoadedPair`, for the pairs with AF). -/
structure LoadedStackPair (s t : State) (p : StackPair) (v : Word) : Prop where
  got : t.rp2 p = v
  others : ∀ q, q ≠ p → t.rp2 q = s.rp2 q
  frame : t = { s.clocked t with main := t.main }

theorem loadedStackPair_of_main {s t : State} {p : StackPair} {v : Word} (h : t.main = (s.setRp2 p v).main)
    (hf : t = { s.clocked t with main := t.main }) : LoadedStackPair s t p v :=
  ⟨by rw [rp2_congr h, rp2_setRp2, if_pos rfl], fun q hq => by rw [rp2_congr h, rp2_setRp2, if_neg hq], hf⟩

theorem setRp2_end (s : State) (n len ts : Nat) (p : StackPair) (v : Word) :
    ∃ t, ((s.prologue n).setRp2 p v).endSeq len ts = .next t ∧ Bookkept s t n ts (s.pc + BitVec.ofNat 16 len) ∧
      LoadedStackPair s t p v := by
  rw [setRp2_eq]
  exact ⟨_, rfl, bookkept_of rfl rfl rfl rfl, loadedStackPair_of_main (by cases p <;> rfl) rfl⟩

/-- The bookkeeping does not look at SP. -/
theorem bookkept_of_setSP {s t : State} {v a : Word} {n ts : Nat} (h : Bookkept (s.setSP v) t n ts a) :
    Bookkept s t n ts a :=
  ⟨h.pc, h.time, ⟨h.counted.bit7, h.counted.low7⟩, h.last⟩

theorem popRp_end (s : State) (p : StackPair) :
    ∃ t, exec (.popRp p) s = .next t ∧ Bookkept s t 1 10 (s.pc + 1) ∧ WordAt s s.sp (t.rp2 p) ∧
      (∀ q, q ≠ p → t.rp2 q = s.rp2 q) ∧ t.sp = s.sp + 2 ∧ t = { s.clocked t with main := t.main, sp := t.sp } := by
  obtain ⟨t, ht, hb, hgot, hothers, hframe⟩ := setRp2_end (s.setSP (s.sp + 2)) 1 1 10 p (s.readWord s.sp)
  have hsp : t.sp = s.sp + 2 := congrArg State.sp hframe
  refine ⟨t, ht, bookkept_of_setSP hb, ?_, fun q hq => (hothers q hq).trans (rp2_congr rfl q), hsp, ?_⟩
  · rw [hgot]
    exact wordAt_readWord s s.sp
  · rw [hsp]
    exact hframe

theorem popXY_end (s : State) (x : XY) :
    ∃ t, exec (.popXY x) s = .next t ∧ Bookkept s t 2 14 (s.pc + 2) ∧ WordAt s s.sp (t.xy x) ∧
      (∀ y, y ≠ x → t.xy y = s.xy y) ∧ t.sp = s.sp + 2 ∧
      t = { s.clocked t with sp := t.sp, ixh := t.ixh, ixl := t.ixl, iyh := t.iyh, iyl := t.iyl } := by
  obtain ⟨t, ht, hb, hgot, hothers, hframe⟩ := setXY_end (s.setSP (s.sp + 2)) 2 2 14 x (s.readWord s.sp)
  have hsp : t.sp = s.sp + 2 := congrArg State.sp hframe
  refine ⟨t, ht, bookkept_of_setSP hb, ?_, fun y hy => (hothers y hy).trans (by cases y <;> rfl), hsp, ?_⟩
  · rw [hgot]
    exact wordAt_readWord s s.sp
  · rw [hsp]
    exact hframe

/-! ### A pop after a push -/

/-- In RAM the word at an address is the word that was stored there (R54). -/
theorem eq_of_storedWord_wordAt {s t : State} {a v w : Word} (hst : StoredWord s t a v) (hlow : 0x3FFF < a.toNat)
    (hhigh : 0x3FFF < (a + 1).toNat) (hw : WordAt t a w) : w = v := by
  apply BitVec.eq_of_toNat_eq
  rw [WordAt, hst.low, hst.high, if_neg (Nat.not_le.mpr hlow), if_neg (Nat.not_le.mpr hhigh), ← hiByte_eq, ← loByte_eq,
    hiByte_toNat, loByte_toNat] at hw
  omega

theorem pair_inj {h l h' l' : Byte} (e : pair h l = pair h' l') : h = h' ∧ l = l' :=
  ⟨by simpa using congrArg hiByte e, by simpa using congrArg loByte e⟩

/-- The main registers are the halves of the four pairs (R22). -/
theorem main_eq_of_rp2 {s t : State} (h : ∀ q, t.rp2 q = s.rp2 q) : t.main = s.main := by
  obtain ⟨_, _⟩ := pair_inj (h .bc)
  obtain ⟨_, _⟩ := pair_inj (h .de)
  obtain ⟨_, _⟩ := pair_inj (h .hl)
  obtain ⟨_, hf⟩ := pair_inj (h .af)
  exact RegSet.ext_get hf fun r => by cases r <;> assumption

theorem popRp_undoes_pushRp {s t u : State} {p : StackPair} (hs : s.mem.wf = true) (hlow : 0x3FFF < (s.sp - 2).toNat)
    (hhigh : 0x3FFF < (s.sp - 1).toNat) (ht : exec (.pushRp p) s = .next t) (hu : exec (.popRp p) t = .next u) :
    u.main = s.main ∧ u.sp = s.sp := by
  obtain ⟨t', ht', -, hsp, hstored, hframe⟩ := pushRp_end hs p
  cases ht.symm.trans ht'
  obtain ⟨u', hu', -, hgot, hothers, husp, -⟩ := popRp_end t p
  cases hu.symm.trans hu'
  have hmain : t.main = s.main := by rw [hframe]; rfl
  have hnext : s.sp - 2 + 1 = s.sp - 1 := by bv_omega
  rw [hsp] at hgot husp
  refine ⟨main_eq_of_rp2 fun q => ?_, husp.trans (BitVec.sub_add_cancel _ _)⟩
  by_cases hq : q = p
  · rw [hq]
    exact eq_of_storedWord_wordAt hstored hlow (hnext ▸ hhigh) hgot
  · exact (hothers q hq).trans (rp2_congr hmain q)

/-- Settles O26: the two pops, and that the pop reads back the word the push stored. -/
theorem pops : Obligations.Pops :=
  ⟨fun s => ⟨popRp_end s, popXY_end s⟩, fun _ _ _ _ hs hlow hhigh ht hu => popRp_undoes_pushRp hs hlow hhigh ht hu⟩

/-! ## I and R (rules R149, R177 to R180) -/

/-- Settles O27, each from the one state it leads to: `LD A,R` reads the R of the prologue, which is the R it leaves;
`LD R,A` writes R after the prologue. -/
theorem specialRegisterLoads : Obligations.SpecialRegisterLoads := fun s =>
  ⟨⟨_, rfl, bookkept_of rfl rfl rfl rfl, rfl, rfl⟩,
    ⟨_, rfl, rfl, rfl, rfl, rfl, rfl⟩,
    ⟨_, rfl, bookkept_of rfl rfl rfl rfl, rfl, rfl, irF_flags s.i s.iff s.main.f⟩,
    ⟨_, rfl, bookkept_of rfl rfl rfl rfl, rfl, rfl, irF_flags (s.prologue 2).r s.iff s.main.f⟩⟩

end Sys2Proof.Machine

/-! # The family of 42_arith_logic.md

An 8-bit operation on A is one function of the state and its operand's value, so what it does is said once for every length,
T-states and count of R (`Performs`); its five operand forms (R200) then follow for all eight operations at once. The 16-bit
operations and the adjustments are a result and F written after the prologue. -/

namespace Sys2Proof.Machine

/-! ## The operand forms (rule R200) -/

/-- The operation `op` on an operand `v`, between prologue and end, leads to a state `t` with `did t v`, whatever the
instruction's count of R, length and T-states. -/
def Performs (s : State) (op : State → Byte → State) (did : State → Byte → Prop) : Prop :=
  ∀ (n len ts : Nat) (v : Byte), ∃ t, (op (s.prologue n) v).endSeq len ts = .next t ∧
    Bookkept s t n ts (s.pc + BitVec.ofNat 16 len) ∧ did t v

/-- `op` on each of the five operands of R200: what it does is `did` of the operand's value before the instruction. -/
structure FiveForms (s : State) (op : State → Byte → State) (did : State → Byte → Prop) : Prop where
  reg : ∀ r, ∃ t, (op (s.prologue 1) (s.reg r)).endSeq 1 4 = .next t ∧ Bookkept s t 1 4 (s.pc + 1) ∧ did t (s.reg r)
  atHL : ∃ t, (op (s.prologue 1) (s.readByte s.hl)).endSeq 1 7 = .next t ∧ Bookkept s t 1 7 (s.pc + 1) ∧
    did t (s.readByte s.hl)
  imm : ∀ v, ∃ t, (op (s.prologue 1) v).endSeq 2 7 = .next t ∧ Bookkept s t 1 7 (s.pc + 2) ∧ did t v
  half : ∀ x h, ∃ t, (op (s.prologue 2) ((s.prologue 2).half x h)).endSeq 2 8 = .next t ∧
    Bookkept s t 2 8 (s.pc + 2) ∧ did t (s.half x h)
  atXY : ∀ x d, ∃ t, (op (s.prologue 2) (s.readByte ((s.prologue 2).ea x d))).endSeq 3 19 = .next t ∧
    Bookkept s t 2 19 (s.pc + 3) ∧ did t (s.readByte (s.ea x d))

/-- The operands are read after the prologue, which leaves them as they are. -/
theorem Performs.fiveForms {s : State} {op : State → Byte → State} {did : State → Byte → Prop} (h : Performs s op did) :
    FiveForms s op did where
  reg r := h 1 1 4 (s.reg r)
  atHL := h 1 1 7 (s.readByte s.hl)
  imm v := h 1 2 7 v
  half x k := half_prologue s 2 x k ▸ h 2 2 8 ((s.prologue 2).half x k)
  atXY x d := ea_prologue s 2 x d ▸ h 2 3 19 (s.readByte ((s.prologue 2).ea x d))

/-! ## The eight operations on A (rules R201 to R208) -/

section Operations

variable (s : State)

theorem addA_performs : Performs s State.addA fun t v => AddedToA s t v 0 := fun _ _ _ v =>
  ⟨_, rfl, bookkept_of rfl rfl rfl rfl, add8_result s.main.a v false, add8_flags s.main.a v false, rfl⟩

theorem adcA_performs : Performs s State.adcA fun t v => AddedToA s t v (flagC s.main.f).toNat := fun _ _ _ v =>
  ⟨_, rfl, bookkept_of rfl rfl rfl rfl, add8_result s.main.a v _, add8_flags s.main.a v _, rfl⟩

theorem subA_performs : Performs s State.subA fun t v => SubtractedFromA s t v 0 := fun _ _ _ v =>
  ⟨_, rfl, bookkept_of rfl rfl rfl rfl, sub8_result s.main.a v false, sub8_flags s.main.a v false, rfl⟩

theorem sbcA_performs : Performs s State.sbcA fun t v => SubtractedFromA s t v (flagC s.main.f).toNat := fun _ _ _ v =>
  ⟨_, rfl, bookkept_of rfl rfl rfl rfl, sub8_result s.main.a v _, sub8_flags s.main.a v _, rfl⟩

theorem cpA_performs : Performs s State.cpA (ComparedWithA s) := fun _ _ _ v =>
  ⟨_, rfl, bookkept_of rfl rfl rfl rfl, fun r hr => cp8_flags s.main.a v r hr, rfl⟩

theorem andA_performs : Performs s State.andA (LogicOnA and true s) := fun _ _ _ v =>
  ⟨_, rfl, bookkept_of rfl rfl rfl rfl, fun _ _ => BitVec.getLsbD_and, and8_flags s.main.a v, rfl⟩

theorem xorA_performs : Performs s State.xorA (LogicOnA xor false s) := fun _ _ _ v =>
  ⟨_, rfl, bookkept_of rfl rfl rfl rfl, fun _ _ => BitVec.getLsbD_xor, xor8_flags s.main.a v, rfl⟩

theorem orA_performs : Performs s State.orA (LogicOnA or false s) := fun _ _ _ v =>
  ⟨_, rfl, bookkept_of rfl rfl rfl rfl, fun _ _ => BitVec.getLsbD_or, or8_flags s.main.a v, rfl⟩

end Operations

/-- Settles O28: the five forms of each of the two operations. -/
theorem addAndAdc : Obligations.AddAndAdc := by
  intro s
  have add := (addA_performs s).fiveForms
  have adc := (adcA_performs s).fiveForms
  exact ⟨add.reg, add.atHL, add.imm, add.half, add.atXY, adc.reg, adc.atHL, adc.imm, adc.half, adc.atXY⟩

/-- Settles O29: the five forms of each of the three operations. -/
theorem subSbcAndCp : Obligations.SubSbcAndCp := by
  intro s
  have sub := (subA_performs s).fiveForms
  have sbc := (sbcA_performs s).fiveForms
  have cp := (cpA_performs s).fiveForms
  exact ⟨sub.reg, sub.atHL, sub.imm, sub.half, sub.atXY, sbc.reg, sbc.atHL, sbc.imm, sbc.half, sbc.atXY,
    cp.reg, cp.atHL, cp.imm, cp.half, cp.atXY⟩

/-- Settles O30: the five forms of each of the three operations. -/
theorem andXorOr : Obligations.AndXorOr := by
  intro s
  have andForms := (andA_performs s).fiveForms
  have xorForms := (xorA_performs s).fiveForms
  have orForms := (orA_performs s).fiveForms
  exact ⟨andForms.reg, andForms.atHL, andForms.imm, andForms.half, andForms.atXY,
    xorForms.reg, xorForms.atHL, xorForms.imm, xorForms.half, xorForms.atXY,
    orForms.reg, orForms.atHL, orForms.imm, orForms.half, orForms.atXY⟩

/-! ## 16-bit arithmetic (rules R209 to R212) -/

/-- An operation `op` on HL and a pair, which the prologue leaves as they are. -/
theorem setResHL_rp_end (s : State) (n len ts : Nat) (p : RegPair) (op : Word → Word → Word × Byte) :
    ∃ t, ((s.prologue n).setResHL (op s.hl ((s.prologue n).rp p))).endSeq len ts = .next t ∧
      Bookkept s t n ts (s.pc + BitVec.ofNat 16 len) ∧ t.hl = (op s.hl (s.rp p)).1 ∧
      t.main.f = (op s.hl (s.rp p)).2 ∧
      t = { s.clocked t with main := { s.main with h := t.main.h, l := t.main.l, f := t.main.f } } := by
  rw [rp_prologue]
  exact ⟨_, rfl, bookkept_of rfl rfl rfl rfl, pair_hi_lo _, rfl, rfl⟩

theorem setXY_setF_end (s : State) (n len ts : Nat) (x : XY) (res : Word × Byte) :
    ∃ t, (((s.prologue n).setXY x res.1).setF res.2).endSeq len ts = .next t ∧
      Bookkept s t n ts (s.pc + BitVec.ofNat 16 len) ∧ t.xy x = res.1 ∧ t.main.f = res.2 ∧
      (∀ y, y ≠ x → t.xy y = s.xy y) ∧
      t = { s.clocked t with
        ixh := t.ixh, ixl := t.ixl, iyh := t.iyh, iyl := t.iyl, main := { s.main with f := t.main.f } } := by
  obtain ⟨hgot, hother, -⟩ := loadedXY_setXY s x res.1
  cases x <;> exact ⟨_, rfl, bookkept_of rfl rfl rfl rfl, hgot, rfl, hother, rfl⟩

/-- The operand of `ADD XY,pp`, case by case (R212). -/
theorem eq_pp {s : State} {x : XY} {p : IdxPair} {v : Word} (hbc : p = .bc → v = s.bc) (hde : p = .de → v = s.de)
    (hxy : p = .xy → v = s.xy x) (hsp : p = .sp → v = s.sp) : v = s.pp x p := by
  cases p with
  | bc => exact hbc rfl
  | de => exact hde rfl
  | xy => exact hxy rfl
  | sp => exact hsp rfl

/-- Settles O31: `add16` into HL or into the index register. -/
theorem wordAdd : Obligations.WordAdd := by
  refine fun s => ⟨fun p => ?addHL, fun x p => ?addXY⟩
  case addHL =>
    obtain ⟨t, ht, hb, hhl, hf, hframe⟩ := setResHL_rp_end s 1 1 11 p (add16 · · s.main.f)
    refine ⟨t, ht, hb, ?_, ?_, hframe⟩
    · rw [hhl]
      exact add16_result _ _ _
    · rw [hhl, hf]
      exact add16_flags _ _ _
  case addXY =>
    obtain ⟨t, ht, hb, hxy, hf, hother, hframe⟩ := setXY_setF_end s 2 2 15 x (add16 (s.xy x) (s.pp x p) s.main.f)
    rw [← xy_prologue s 2 x, ← pp_prologue s 2 x p] at ht
    refine ⟨t, ht, hb, fun v hbc hde hix hsp => ?_, hother, hframe⟩
    rw [eq_pp hbc hde hix hsp, hxy, hf]
    exact ⟨add16_result _ _ _, add16_flags _ _ _⟩

/-- Settles O32: `adc16` or `sbc16` into HL. -/
theorem wordAddAndSubtractWithCarry : Obligations.WordAddAndSubtractWithCarry := by
  refine fun s p => ⟨?adc, ?sbc⟩
  case adc =>
    obtain ⟨t, ht, hb, hhl, hf, hframe⟩ := setResHL_rp_end s 2 2 15 p (adc16 · · (flagC s.main.f))
    refine ⟨t, ht, hb, ?_, ?_, hframe⟩
    · rw [hhl]
      exact adc16_result _ _ _
    · rw [hhl, hf]
      exact adc16_flags _ _ _
  case sbc =>
    obtain ⟨t, ht, hb, hhl, hf, hframe⟩ := setResHL_rp_end s 2 2 15 p (sbc16 · · (flagC s.main.f))
    refine ⟨t, ht, hb, ?_, ?_, hframe⟩
    · rw [hhl]
      exact sbc16_result _ _ _
    · rw [hhl, hf]
      exact sbc16_flags _ _ _

/-! ## Accumulator adjustments and carry operations (rules R137, R213 to R217) -/

theorem cpl_result (a f : Byte) : (cpl a f).1.toNat = 255 - a.toNat := by
  show (a ^^^ BitVec.allOnes 8).toNat = 255 - a.toNat
  rw [BitVec.xor_allOnes, BitVec.toNat_not]

/-- Settles O33, each from the one state it leads to; the code `y` of NEG is not looked at (R215). -/
theorem accumulatorAdjustments : Obligations.AccumulatorAdjustments := by
  refine fun s => ⟨fun y => ?neg, ?cpl, ?scf, ?ccf, ?daa⟩
  case neg => exact ⟨_, rfl, bookkept_of rfl rfl rfl rfl, neg8_result s.main.a, neg8_flags s.main.a, rfl⟩
  case cpl => exact ⟨_, rfl, bookkept_of rfl rfl rfl rfl, cpl_result s.main.a s.main.f, cpl_flags s.main.a s.main.f, rfl⟩
  case scf => exact ⟨_, rfl, bookkept_of rfl rfl rfl rfl, scf_flags s.main.a s.main.f, rfl⟩
  case ccf => exact ⟨_, rfl, bookkept_of rfl rfl rfl rfl, ccf_flags s.main.a s.main.f, rfl⟩
  case daa =>
    exact ⟨_, rfl, bookkept_of rfl rfl rfl rfl, rfl, fun corr hcorr =>
      ⟨daa_result s.main.a s.main.f corr hcorr, daa_flags s.main.a s.main.f⟩⟩

end Sys2Proof.Machine

/-! # The family of 43_inc_dec.md

INC and DEC of a byte are one operation each, on the operand's value and F, so their four operand forms are said once for any
such operation (`ByteForms`). INC and DEC of a word write the pair or index register with a value read after the prologue,
which leaves it as it is. -/

namespace Sys2Proof.Machine

/-! ## 8-bit INC and DEC (rules R230 to R237) -/

/-- A result in one index half, and F (R236): the other half of the index register is kept. -/
theorem setHalf_setF_end (s : State) (n len ts : Nat) (x : XY) (h : Half) (res : Byte × Byte) :
    ∃ t, (((s.prologue n).setHalf x h res.1).setF res.2).endSeq len ts = .next t ∧
      Bookkept s t n ts (s.pc + BitVec.ofNat 16 len) ∧ t.half x h = res.1 ∧ t.main.f = res.2 ∧
      (∀ y k, (y ≠ x ∨ k ≠ h) → t.half y k = s.half y k) ∧
      t = { s.clocked t with
        ixh := t.ixh, ixl := t.ixl, iyh := t.iyh, iyl := t.iyl, main := { s.main with f := t.main.f } } := by
  obtain ⟨hgot, hothers, -⟩ := loadedHalf_setHalf s x h res.1
  cases x <;> cases h <;> exact ⟨_, rfl, bookkept_of rfl rfl rfl rfl, hgot, rfl, hothers, rfl⟩

/-- The operation `op` of a byte and F on each of its four operands: what it does is `g`, its result goes back to where the
operand was read, through the ROM check if that is in memory, and nothing else changes but F. -/
structure ByteForms (s : State) (op : Byte → Byte → Byte × Byte) (g : Byte → Byte → Byte → Byte → Prop) : Prop where
  reg : ∀ r, ∃ t, ((s.prologue 1).setResReg r (op (s.reg r) s.main.f)).endSeq 1 4 = .next t ∧
    Bookkept s t 1 4 (s.pc + 1) ∧ OnRegister g s t r
  atHL : ∃ t, ((s.prologue 1).setResMem s.hl (op (s.readByte s.hl) s.main.f)).endSeq 1 11 = .next t ∧
    Bookkept s t 1 11 (s.pc + 1) ∧ OnMemory g s t s.hl
  atXY : ∀ x d, ∃ t, ((s.prologue 2).setResMem ((s.prologue 2).ea x d)
      (op (s.readByte ((s.prologue 2).ea x d)) s.main.f)).endSeq 3 23 = .next t ∧
    Bookkept s t 2 23 (s.pc + 3) ∧ OnMemory g s t (s.ea x d)
  half : ∀ x h, ∃ t, (((s.prologue 2).setHalf x h (op ((s.prologue 2).half x h) s.main.f).1).setF
      (op ((s.prologue 2).half x h) s.main.f).2).endSeq 2 8 = .next t ∧
    Bookkept s t 2 8 (s.pc + 2) ∧ g (s.half x h) (t.half x h) s.main.f t.main.f ∧
    (∀ y k, (y ≠ x ∨ k ≠ h) → t.half y k = s.half y k) ∧
    t = { s.clocked t with
      ixh := t.ixh, ixl := t.ixl, iyh := t.iyh, iyl := t.iyl, main := { s.main with f := t.main.f } }

theorem byteForms_of_spec {s : State} (hs : s.mem.wf = true) {op : Byte → Byte → Byte × Byte}
    {g : Byte → Byte → Byte → Byte → Prop} (spec : ∀ v f, g v (op v f).1 f (op v f).2) : ByteForms s op g where
  reg r := setResReg_end s 1 1 4 r _ (spec (s.reg r) s.main.f)
  atHL := setResMem_end hs 1 1 11 s.hl _ (spec (s.readByte s.hl) s.main.f)
  atXY x d := by
    rw [ea_prologue]
    exact setResMem_end hs 2 3 23 (s.ea x d) _ (spec (s.readByte (s.ea x d)) s.main.f)
  half x h := by
    rw [half_prologue]
    obtain ⟨t, ht, hb, hgot, hf, hothers, hframe⟩ := setHalf_setF_end s 2 2 8 x h (op (s.half x h) s.main.f)
    refine ⟨t, ht, hb, ?_, hothers, hframe⟩
    rw [hgot, hf]
    exact spec (s.half x h) s.main.f

/-- Settles O35: the four forms of each of the two operations. -/
theorem byteIncrementAndDecrement : Obligations.ByteIncrementAndDecrement := by
  intro s hs
  have inc := byteForms_of_spec hs inc8_spec
  have dec := byteForms_of_spec hs dec8_spec
  exact ⟨inc.reg, dec.reg, inc.atHL, dec.atHL, inc.atXY, dec.atXY, inc.half, dec.half⟩

/-! ## 16-bit INC and DEC (rules R238 to R241) -/

theorem word_succ_toNat (w : Word) : (w + 1).toNat = (w.toNat + 1) % 65536 := word_add_ofNat_toNat w 1

/-- `word_pred_toNat` without a negative number: one less is 65535 more, mod 65536. -/
theorem word_pred_toNat_eq_add (w : Word) : (w - 1).toNat = (w.toNat + 65535) % 65536 := by
  have h := word_pred_toNat w
  omega

/-- An outcome about a value written is one about some value with that number. -/
theorem exists_value_of_toNat_eq {s : State} {o : Out} {n ts k : Nat} {pc v : Word} {loaded : State → Word → Prop}
    (h : ∃ t, o = .next t ∧ Bookkept s t n ts pc ∧ loaded t v) (hv : v.toNat = k) :
    ∃ t w, o = .next t ∧ Bookkept s t n ts pc ∧ loaded t w ∧ w.toNat = k := by
  obtain ⟨t, ho, hb, hl⟩ := h
  exact ⟨t, v, ho, hb, hl, hv⟩

/-- Settles O36: a pair or an index register written with one more or one less than its own value, which is read after the
prologue. -/
theorem wordIncrementAndDecrement : Obligations.WordIncrementAndDecrement := by
  refine fun s => ⟨fun p => ?incRp, fun p => ?decRp, fun x => ?incXY, fun x => ?decXY⟩
  case incRp =>
    exact exists_value_of_toNat_eq (setRp_end s 1 1 6 p ((s.prologue 1).rp p + 1))
      (rp_prologue s 1 p ▸ word_succ_toNat ((s.prologue 1).rp p))
  case decRp =>
    exact exists_value_of_toNat_eq (setRp_end s 1 1 6 p ((s.prologue 1).rp p - 1))
      (rp_prologue s 1 p ▸ word_pred_toNat_eq_add ((s.prologue 1).rp p))
  case incXY =>
    exact exists_value_of_toNat_eq (setXY_end s 2 2 10 x ((s.prologue 2).xy x + 1))
      (xy_prologue s 2 x ▸ word_succ_toNat ((s.prologue 2).xy x))
  case decXY =>
    exact exists_value_of_toNat_eq (setXY_end s 2 2 10 x ((s.prologue 2).xy x - 1))
      (xy_prologue s 2 x ▸ word_pred_toNat_eq_add ((s.prologue 2).xy x))

end Sys2Proof.Machine

/-! # The family of 44_rotate_shift_bit.md

The rotates, shifts, RES and SET are each one operation on a byte and F in the four operand forms of the model, so what a
form does is said once for any operation with a specification, and the laws of the flags give the specifications. The
accumulator rotates come in two pairs that undo each other, as the spec keeps their round trips. RLD and RRD put two bytes
together from the digits of two. -/

namespace Sys2Proof.Machine

/-! ## Accumulator rotates (rules R134, R245 to R248) -/

theorem rotaForm_end (k : RotKind) (s : State) :
    ∃ t, rotaForm k s = .next t ∧ Bookkept s t 1 4 (s.pc + 1) ∧
      t.main.a.toNat = rotatedNat k s.main.a.toNat (s.main.f.getLsbD 0).toNat ∧
      FlagsAre t.main.f (s.main.f.getLsbD 7) (s.main.f.getLsbD 6) (t.main.a.getLsbD 5) false (t.main.a.getLsbD 3)
        (s.main.f.getLsbD 2) false (shiftedOut k s.main.a) ∧
      OnlyAF s t :=
  ⟨_, rfl, bookkept_of rfl rfl rfl rfl, rotResult_toNat k s.main.a (flagC s.main.f), rota_flags k s.main.a s.main.f, rfl⟩

/-! ### The round trips (rule R135, 90_conflicts.md C6) -/

/-- `Undoes k k'`: the rotate `k'` is the one that goes back after `k` (R135). -/
inductive Undoes : RotKind → RotKind → Prop
  | rlcThenRrc : Undoes .rlc .rrc
  | rrcThenRlc : Undoes .rrc .rlc
  | rlThenRr : Undoes .rl .rr
  | rrThenRl : Undoes .rr .rl

/-- The bit that a rotate, one of the four of `Undoes`, brings into `a` where the carry was `c`. -/
def rotatedIn (k : RotKind) (a : Byte) (c : Bool) : Bool :=
  match k with
  | .rlc => a.getLsbD 7
  | .rrc => a.getLsbD 0
  | _ => c

theorem rotCarry_rotResult {k k' : RotKind} (h : Undoes k k') (a : Byte) (c : Bool) :
    rotCarry k' (rotResult k a c) = rotatedIn k a c := by
  cases h <;> simp [rotCarry, rotResult, rotatedIn, flagAt_getElem]

theorem rotResult_rotResult {k k' : RotKind} (h : Undoes k k') (a : Byte) (c : Bool) :
    rotResult k' (rotResult k a c) (rotCarry k a) = a := by
  have ha := a.isLt
  have hc : c.toNat ≤ 1 := Bool.toNat_le c
  have htop : a.toNat / 128 = 0 ∨ a.toNat / 128 = 1 := by omega
  have hlow : a.toNat % 2 = 0 ∨ a.toNat % 2 = 1 := by omega
  apply BitVec.eq_of_toNat_eq
  rw [rotResult_toNat, rotResult_toNat]
  cases h <;> simp only [rotatedNat, rotCarry, BitVec.getLsbD, Nat.toNat_testBit] <;> omega

theorem rota_rota {k k' : RotKind} (h : Undoes k k') (a f : Byte) :
    (rota k' (rota k a f).1 (rota k a f).2).1 = a ∧
      (rota k' (rota k a f).1 (rota k a f).2).2.getLsbD 0 = rotatedIn k a (f.getLsbD 0) := by
  constructor
  · have hcarry : flagC (rota k a f).2 = rotCarry k a := (rota_flags k a f).bitC.trans (rotCarry_eq k a).symm
    rw [rota, hcarry]
    exact rotResult_rotResult h a (flagC f)
  · rw [(rota_flags k' _ _).bitC, ← rotCarry_eq]
    exact rotCarry_rotResult h a (f.getLsbD 0)

theorem rotaForm_undo {k k' : RotKind} (h : Undoes k k') {s t u : State} (ht : rotaForm k s = .next t)
    (hu : rotaForm k' t = .next u) :
    u.main.a = s.main.a ∧ u.main.f.getLsbD 0 = rotatedIn k s.main.a (s.main.f.getLsbD 0) := by
  cases ht
  cases hu
  exact rota_rota h s.main.a s.main.f

/-- Settles O37: each row is `rotaForm` of its kind, and each of the four is undone by the rotate the other way. -/
theorem accumulatorRotates : Obligations.AccumulatorRotates := by
  refine ⟨fun s k hk => ?_, fun s t u => ⟨rotaForm_undo .rlcThenRrc, rotaForm_undo .rrcThenRlc,
    rotaForm_undo .rlThenRr, rotaForm_undo .rrThenRl⟩⟩
  have hexec : exec k.1 s = rotaForm k.2 s := by fin_cases hk <;> rfl
  rw [hexec]
  exact rotaForm_end k.2 s

/-! ## The operand forms (rules R249, R258, R259) -/

section OperandForms

variable {op : Byte → Byte → Byte × Byte} {g : Byte → Byte → Byte → Byte → Prop}
  (spec : ∀ v f, g v (op v f).1 f (op v f).2)

include spec

theorem cbReg_spec (s : State) (r : Reg8) :
    ∃ t, cbReg op r s = .next t ∧ Bookkept s t 2 8 (s.pc + 2) ∧ OnRegister g s t r :=
  setResReg_end s 2 2 8 r _ (spec (s.reg r) s.main.f)

variable {s : State} (hs : s.mem.wf = true)

include hs

theorem cbAtHL_spec : ∃ t, cbAtHL op s = .next t ∧ Bookkept s t 2 15 (s.pc + 2) ∧ OnMemory g s t s.hl :=
  setResMem_end hs 2 2 15 s.hl _ (spec (s.readByte s.hl) s.main.f)

theorem cbAtXY_spec (x : XY) (d : Byte) :
    ∃ t, cbAtXY op x d s = .next t ∧ Bookkept s t 2 23 (s.pc + 4) ∧ OnMemory g s t (s.ea x d) := by
  rw [cbAtXY, ea_prologue]
  exact setResMem_end hs 2 4 23 (s.ea x d) _ (spec (s.readByte (s.ea x d)) s.main.f)

theorem cbAtXYR_spec (x : XY) (d : Byte) (r : Reg8) :
    ∃ t, cbAtXYR op x d r s = .next t ∧ Bookkept s t 2 23 (s.pc + 4) ∧ OnMemoryAndCopy g s t (s.ea x d) r := by
  rw [cbAtXYR, ea_prologue]
  exact setResMemReg_end hs 2 4 23 (s.ea x d) r _ (spec (s.readByte (s.ea x d)) s.main.f)

end OperandForms

/-! ## Rotates and shifts (rules R133, R250 to R257) -/

/-- Settles O38: each row is `cbReg` of its kind's operation. -/
theorem rotateRegister : Obligations.RotateRegister := by
  intro s r k hk
  have hexec : exec k.1 s = cbReg (rotOp k.2) r s := by fin_cases hk <;> rfl
  rw [hexec]
  exact cbReg_spec (rot_spec k.2) s r

/-- Settles O39: each row is the memory form of its kind's operation. -/
theorem rotateMemory : Obligations.RotateMemory := by
  refine fun s hs => ⟨fun k hk => ?atHL, fun x d k hk => ?atXY, fun x d r k hk => ?atXYR⟩
  case atHL =>
    have hexec : exec k.1 s = cbAtHL (rotOp k.2) s := by fin_cases hk <;> rfl
    rw [hexec]
    exact cbAtHL_spec (rot_spec k.2) hs
  case atXY =>
    have hexec : exec k.1 s = cbAtXY (rotOp k.2) x d s := by fin_cases hk <;> rfl
    rw [hexec]
    exact cbAtXY_spec (rot_spec k.2) hs x d
  case atXYR =>
    have hexec : exec k.1 s = cbAtXYR (rotOp k.2) x d r s := by fin_cases hk <;> rfl
    rw [hexec]
    exact cbAtXYR_spec (rot_spec k.2) hs x d r

/-! ## Bit test, reset and set (rules R136, R260 to R264) -/

theorem setF_bitF_end (s : State) (len ts : Nat) (b : BitVec 3) (v u : Byte) :
    ∃ t, ((s.prologue 2).setF (bitF b v u s.main.f)).endSeq len ts = .next t ∧
      Bookkept s t 2 ts (s.pc + BitVec.ofNat 16 len) ∧ OnlyF s t ∧ BitTested b v u s.main.f t.main.f :=
  ⟨_, rfl, bookkept_of rfl rfl rfl rfl, rfl, bitF_spec b v u s.main.f⟩

/-- Settles O40: F is `bitF` of the operand; the field z is not looked at (R262). -/
theorem bitTest : Obligations.BitTest := by
  refine fun s => ⟨fun b r => ?reg, fun b => ?atHL, fun x d b z => ?atXY⟩
  case reg => exact setF_bitF_end s 2 8 b (s.reg r) (s.reg r)
  case atHL => exact setF_bitF_end s 2 12 b (s.readByte s.hl) (s.readByte s.hl)
  case atXY =>
    show ∃ t, execBitAtXY x d b z s = .next t ∧ _
    rw [execBitAtXY, ea_prologue, ← hiByte_eq_ofNat]
    exact setF_bitF_end s 4 20 b (s.readByte (s.ea x d)) (hiByte (s.ea x d))

/-- Settles O41: the four operand forms of each of the two operations. -/
theorem bitResetAndSet : Obligations.BitResetAndSet := fun s b hs =>
  ⟨cbReg_spec (resOp_spec b) s, cbReg_spec (setOp_spec b) s,
    cbAtHL_spec (resOp_spec b) hs, cbAtHL_spec (setOp_spec b) hs,
    cbAtXY_spec (resOp_spec b) hs, cbAtXY_spec (setOp_spec b) hs,
    cbAtXYR_spec (resOp_spec b) hs, cbAtXYR_spec (setOp_spec b) hs⟩

/-! ## Digit rotates (rules R150, R265, R266) -/

theorem and_0F_toNat (v : Byte) : (v &&& 0x0F).toNat = v.toNat % 16 := by
  rw [BitVec.toNat_and]
  exact Nat.and_two_pow_sub_one_eq_mod v.toNat 4

theorem shiftRight_four_toNat (v : Byte) : (v >>> 4).toNat = v.toNat / 16 := by
  rw [BitVec.toNat_ushiftRight, Nat.shiftRight_eq_div_pow]

theorem shiftLeft_four_toNat (v : Byte) : (v <<< 4).toNat = v.toNat % 16 * 16 := by
  rw [BitVec.toNat_shiftLeft, Nat.shiftLeft_eq]
  omega

theorem and_F0_toNat (v : Byte) : (v &&& 0xF0).toNat = v.toNat / 16 * 16 := by
  have hdown : v &&& (0xF0 : Byte) = (v >>> 4) <<< 4 := by
    apply BitVec.eq_of_getLsbD_eq
    intro i hi
    interval_cases i <;> simp
  have hv := v.isLt
  rw [hdown, shiftLeft_four_toNat, shiftRight_four_toNat]
  omega

/-- A high digit `m` that stands in place and a low digit `n` make up one byte. -/
theorem or_toNat_of_digits {h l : Byte} {m n : Nat} (hm : h.toNat = m * 16) (hl : l.toNat = n) (hn : n < 16) :
    (h ||| l).toNat = m * 16 + n := by
  rw [BitVec.toNat_or, hm, hl, Nat.mul_comm]
  exact (Nat.two_pow_add_eq_or_of_lt (i := 4) hn m).symm

/-- The shape of RLD and RRD: `w` stored at HL, `a` in A. -/
theorem rotateDigits_end {s : State} (hs : s.mem.wf = true) {w a : Byte} {j k : Nat} (hw : w.toNat = j) (ha : a.toNat = k) :
    ∃ t w', (((s.prologue 2).writeByte s.hl w).setResA (a, rdF a s.main.f)).endSeq 2 18 = .next t ∧
      Bookkept s t 2 18 (s.pc + 2) ∧ w'.toNat = j ∧ StoredByte s t s.hl w' ∧ t.main.a.toNat = k ∧
      ParityFlags t.main.a (s.main.f.getLsbD 0) t.main.f ∧
      t = { s.clocked t with mem := t.mem, main := { s.main with a := t.main.a, f := t.main.f } } := by
  rw [writeByte_eq, writeByte_mem_congr (s := s) (t := s.prologue 2) rfl s.hl w]
  exact ⟨_, w, rfl, bookkept_of rfl rfl rfl rfl, hw, storedByte_of_mem hs rfl, ha, rdF_flags a s.main.f, rfl⟩

/-- Settles O42: the byte stored and the new A are each put together from two digits of A and (HL). -/
theorem digitRotates : Obligations.DigitRotates := by
  intro s hs
  have hlow (v : Byte) : v.toNat % 16 < 16 := Nat.mod_lt _ (by decide)
  have hhigh (v : Byte) : v.toNat / 16 < 16 := Nat.div_lt_of_lt_mul v.isLt
  constructor
  · exact rotateDigits_end hs
      (or_toNat_of_digits (shiftLeft_four_toNat (s.readByte s.hl)) (and_0F_toNat s.main.a) (hlow s.main.a))
      (or_toNat_of_digits (and_F0_toNat s.main.a) (shiftRight_four_toNat (s.readByte s.hl)) (hhigh (s.readByte s.hl)))
  · have hup : ((s.main.a &&& 0x0F) <<< 4).toNat = s.main.a.toNat % 16 * 16 := by
      rw [shiftLeft_four_toNat, and_0F_toNat, Nat.mod_mod]
    exact rotateDigits_end hs
      (or_toNat_of_digits hup (shiftRight_four_toNat (s.readByte s.hl)) (hhigh (s.readByte s.hl)))
      (or_toNat_of_digits (and_F0_toNat s.main.a) (and_0F_toNat (s.readByte s.hl)) (hlow (s.readByte s.hl)))

end Sys2Proof.Machine

/-! # The family of 45_block_io.md

A block instruction is one step and then its end (R275, R276). What each step does is said in the laws of its operation
(`ldStep_spec` and its like), which hold whatever T and PC the end sets; so the two ends are said once for any step, and each
statement is the two ends of one step in its two directions. -/

namespace Sys2Proof.Machine

/-! ## The two ends of a step (rule R275) -/

/-- The state `u` that a block instruction's step has left before the instruction ends: PC, T, R and LAST are still the
prologue's, and `did` holds of `u` with any T and PC. -/
structure Stepped (s u : State) (did : State → Prop) : Prop where
  pc : u.pc = s.pc
  time : u.t = s.t
  counted : u.r = (s.incR 2).r
  last : u.last = .other
  did : ∀ {t : State}, t = { u with t := t.t, pc := t.pc } → did t

section Ends

variable {s u : State} {did : State → Prop} (h : Stepped s u did)

include h

theorem Stepped.single : ∃ t, u.endSeq 2 16 = .next t ∧ Bookkept s t 2 16 (s.pc + 2) ∧ did t := by
  obtain ⟨t, ho, hb, ht⟩ := block_end h.pc h.time h.counted h.last
  exact ⟨t, ho, hb, h.did ht⟩

/-- A repeating form tests `c` before T and PC are set, so `again` must be a property that they do not touch. -/
theorem Stepped.repeating {c : Bool} {again : State → Prop}
    (hc : ∀ n a, c = true ↔ again { u with t := n, pc := a }) :
    ∃ t, u.repeatOrEnd c = .next t ∧ did t ∧ RepeatsOrEnds s t (again t) := by
  obtain ⟨t, ho, hr, ht⟩ := block_repeat c h.pc h.time h.counted h.last
  have hagain : (c = true) = again t := by
    rw [ht]
    exact propext (hc t.t t.pc)
  exact ⟨t, ho, h.did ht, hagain ▸ hr⟩

end Ends

theorem bne_zero_iff {w : Nat} (v : BitVec w) : (v != 0) = true ↔ v.toNat ≠ 0 := by
  rw [bne_zero_eq, decide_eq_true_iff]

/-! ## The four steps -/

section Steps

variable {s : State} {δ : Word} {d : Int} (hd : Moves δ d)

include hd

theorem stepped_ldStep (hs : s.mem.wf = true) : Stepped s ((s.prologue 2).ldStep δ) (BlockCopied s · d) := by
  refine ⟨?_, ?_, ?_, ?_, ldStep_spec hs hd⟩ <;> rw [ldStep_eq] <;> rfl

theorem stepped_cpStep : Stepped s ((s.prologue 2).cpStep δ) (BlockCompared s · d) := by
  refine ⟨?_, ?_, ?_, ?_, cpStep_spec hd⟩ <;> rw [cpStep_eq] <;> rfl

theorem stepped_inStep (hs : s.mem.wf = true) : Stepped s ((s.prologue 2).inStep δ) (BlockInput s · d) := by
  refine ⟨?_, ?_, ?_, ?_, inStep_spec hs hd⟩ <;> rw [inStep_eq] <;> rfl

theorem stepped_outStep : Stepped s ((s.prologue 2).outStep δ) (BlockOutput s · d) := by
  refine ⟨?_, ?_, ?_, ?_, outStep_spec hd⟩ <;> rw [outStep_eq] <;> rfl

end Steps

/-! ## The statements (rules R277 to R292) -/

/-- Settles O43: a repeating form goes again while the step's BC is not 0. -/
theorem blockTransfer : Obligations.BlockTransfer := by
  intro s hs
  have hup := stepped_ldStep moves_up hs
  have hdown := stepped_ldStep moves_down hs
  exact ⟨hup.single, hdown.single, hup.repeating fun _ _ => bne_zero_iff _, hdown.repeating fun _ _ => bne_zero_iff _⟩

theorem cpStep_bc (s : State) (δ : Word) : ((s.prologue 2).cpStep δ).bc = s.bc - 1 := by
  rw [cpStep_eq]
  exact pair_hi_lo _

/-- The byte compared is read before the step, and BC is tested after it (R283, R284). -/
theorem cpRepeat_end {s : State} {δ : Word} {d : Int} (hd : Moves δ d) :
    ∃ t, (s.prologue 2).cpRepeat δ = .next t ∧ BlockCompared s t d ∧
      RepeatsOrEnds s t (t.bc.toNat ≠ 0 ∧ s.main.a ≠ s.readByte s.hl) := by
  rw [cpRepeat_eq]
  refine (stepped_cpStep hd).repeating fun _ _ => ?_
  rw [decide_eq_true_iff, ← cpStep_bc s δ, BitVec.toNat_ne]
  rfl

/-- Settles O44: a repeating form is `cpRepeat`. -/
theorem blockCompare : Obligations.BlockCompare := fun _ =>
  ⟨(stepped_cpStep moves_up).single, (stepped_cpStep moves_down).single, cpRepeat_end moves_up, cpRepeat_end moves_down⟩

/-- Settles O45: a repeating form goes again while the step's B is not 0; the byte is whatever the port gave. -/
theorem blockIn : Obligations.BlockIn := by
  intro s hs
  have hup := stepped_inStep moves_up hs
  have hdown := stepped_inStep moves_down hs
  exact ⟨hup.single, hdown.single, hup.repeating fun _ _ => bne_zero_iff _, hdown.repeating fun _ _ => bne_zero_iff _⟩

/-- Settles O46: a repeating form goes again while the step's B is not 0. -/
theorem blockOut : Obligations.BlockOut := by
  intro s
  have hup := stepped_outStep (s := s) moves_up
  have hdown := stepped_outStep (s := s) moves_down
  exact ⟨hup.single, hdown.single, hup.repeating fun _ _ => bne_zero_iff _, hdown.repeating fun _ _ => bne_zero_iff _⟩

end Sys2Proof.Machine

/-! # The family of 46_control_flow.md

Every jump, call and return ends in one of the laws' shapes (PC set, a push or a pop and then PC set). A conditional one
has two ends, chosen by the bits of F or by B, and what holds of it is said by the same condition
(`exists_next_of_branch`). -/

namespace Sys2Proof.Machine

/-! ## An instruction with two ends (rules R93, R301, R303, R306, R308, R310) -/

theorem cond_prologue_iff (s : State) (n : Nat) (cc : Cond) :
    (s.prologue n).cond cc = true ↔ condTrue s.main.f cc = true := by
  rw [cond_prologue, cond_eq]

section Branches

variable {c : Bool} {p : Prop} [Decidable p] {o o' : Out} {taken notTaken did : State → Prop} (hc : c = true ↔ p)

include hc

/-- What each end does is what the branch does, by the condition `p` that the model tests as `c`. -/
theorem exists_next_of_branch (h : ∃ t, o = .next t ∧ taken t) (h' : ∃ t, o' = .next t ∧ notTaken t) :
    ∃ t, (if c then o else o') = .next t ∧ if p then taken t else notTaken t := by
  by_cases hp : p
  · simpa only [if_pos hp, if_pos (hc.mpr hp)] using h
  · simpa only [if_neg hp, if_neg (mt hc.mp hp)] using h'

/-- What both ends do, the branch does whichever it takes. -/
theorem exists_next_of_branch_both (h : ∃ t, o = .next t ∧ taken t ∧ did t)
    (h' : ∃ t, o' = .next t ∧ notTaken t ∧ did t) :
    ∃ t, (if c then o else o') = .next t ∧ did t ∧ if p then taken t else notTaken t := by
  by_cases hp : p
  · simpa only [if_pos hp, if_pos (hc.mpr hp), and_comm] using h
  · simpa only [if_neg hp, if_neg (mt hc.mp hp), and_comm] using h'

end Branches

/-! ## Jumps (rules R300 to R306) -/

/-- Both ends of `JP cc,nn` take 10 T-states, so it is one jump to the one address or the other (R301). -/
theorem exec_jpCcNn_eq_finish (s : State) (cc : Cond) (nn : Word) :
    exec (.jpCcNn cc nn) s = (s.prologue 1).finish (if condTrue s.main.f cc then nn else s.pc + 3) 10 := by
  rw [← cond_eq, ← cond_prologue s 1]
  exact (apply_ite (fun a => (s.prologue 1).finish a 10) _ nn (s.pc + 3)).symm

theorem jrCc_end (s : State) (cc : Cond) (e : Byte) :
    ∃ t a, exec (.jrCc cc e) s = .next t ∧ IsRelTarget s.pc e a ∧ OnlyClocked s t ∧
      if condTrue s.main.f cc then Bookkept s t 1 12 a else Bookkept s t 1 7 (s.pc + 2) := by
  obtain ⟨t, ho, hframe, hbook⟩ := exists_next_of_branch_both (cond_prologue_iff s 1 cc)
    (finish_only s 1 12 (s.relTarget e)) (finish_only s 1 7 (s.pc + 2))
  exact ⟨t, s.relTarget e, ho, relTarget_spec s e, hframe, hbook⟩

theorem setReg_finish (s : State) (n ts : Nat) (a : Word) (r : Reg8) (v : Byte) :
    ∃ t, ((s.prologue n).setReg r v).finish a ts = .next t ∧ Bookkept s t n ts a ∧ LoadedReg s t r v :=
  ⟨_, rfl, bookkept_of rfl rfl rfl rfl, RegSet.get_set_same _ _ _, fun _ hk => RegSet.get_set_other _ _ hk,
    RegSet.set_f _ _ _, rfl⟩

/-- The model tests B after it has counted it down; before that the test is on B = 1 (R306). -/
theorem byte_pred_bne_zero_iff (b : Byte) : (b - 1 != 0) = true ↔ ¬ b.toNat = 1 := by
  rw [bne_zero_iff]
  bv_omega

theorem djnz_end (s : State) (e : Byte) :
    ∃ t a, exec (.djnz e) s = .next t ∧ IsRelTarget s.pc e a ∧ LoadedReg s t .b (s.main.b - 1) ∧
      if s.main.b.toNat = 1 then Bookkept s t 1 8 (s.pc + 2) else Bookkept s t 1 13 a := by
  obtain ⟨t, ho, hloaded, hbook⟩ := exists_next_of_branch_both (byte_pred_bne_zero_iff s.main.b)
    (setReg_finish s 1 13 (s.relTarget e) .b (s.main.b - 1)) (setReg_end s 1 2 8 .b (s.main.b - 1))
  rw [ite_not] at hbook
  exact ⟨t, s.relTarget e, ho, relTarget_spec s e, hloaded, hbook⟩

/-- Settles O48: PC set to an address that the prologue leaves as it is; DJNZ also writes B. -/
theorem jumps : Obligations.Jumps := by
  refine fun s => ⟨finish_only s 1 10, fun cc nn => ?jpCcNn, fun e => ?jr, jrCc_end s, finish_only s 1 4 s.hl,
    fun x => xy_prologue s 2 x ▸ finish_only s 2 8 ((s.prologue 2).xy x), djnz_end s⟩
  case jpCcNn =>
    rw [exec_jpCcNn_eq_finish]
    obtain ⟨t, ho, hbook, hframe⟩ := finish_only s 1 10 (if condTrue s.main.f cc then nn else s.pc + 3)
    exact ⟨t, ho, hframe, hbook⟩
  case jr =>
    obtain ⟨t, ho, hbook, hframe⟩ := finish_only s 1 12 (s.relTarget e)
    exact ⟨t, s.relTarget e, ho, relTarget_spec s e, hbook, hframe⟩

/-! ## Calls (rules R307, R308, R311) -/

theorem rst_target_toNat (p : BitVec 3) : (BitVec.ofNat 16 (p.toNat * 8)).toNat = 8 * p.toNat := by
  have hp := p.isLt
  rw [BitVec.toNat_ofNat]
  omega

/-- Settles O49: a word pushed and PC set, or for a call not taken PC alone. -/
theorem calls : Obligations.Calls := by
  refine fun s hs => ⟨fun nn => push16_finish hs 1 17 nn (s.pc + 3), fun cc nn => ?callCcNn, fun p => ?rst⟩
  case callCcNn =>
    exact exists_next_of_branch (cond_prologue_iff s 1 cc) (push16_finish hs 1 17 nn (s.pc + 3))
      (finish_only s 1 10 (s.pc + 3))
  case rst =>
    obtain ⟨t, ho, hbook, hpushed⟩ := push16_finish hs 1 11 (BitVec.ofNat 16 (p.toNat * 8)) (s.pc + 1)
    exact ⟨t, _, ho, rst_target_toNat p, hbook, hpushed⟩

/-! ## Returns (rules R309, R310, R337, R338) -/

/-- Settles O50: the word at SP popped into PC, or for a return not taken PC alone;
the code `y` of RETN is not looked at. -/
theorem returns : Obligations.Returns := by
  refine fun s => ⟨retTo_end s 1 10, fun cc => ?retCc, fun _ => returnFromInterrupt_end s 2 14,
    returnFromInterrupt_end s 2 14⟩
  case retCc =>
    obtain ⟨t, a, ho, hword, hbook, hframe⟩ := retTo_end s 1 11
    have htaken : ∃ t, (s.prologue 1).retTo 11 = .next t ∧ Bookkept s t 1 11 a ∧
        t = { s.clocked t with sp := s.sp + 2 } := ⟨t, ho, hbook, hframe⟩
    obtain ⟨u, hu, h⟩ := exists_next_of_branch (cond_prologue_iff s 1 cc) htaken (finish_only s 1 5 (s.pc + 1))
    exact ⟨u, a, hu, hword, h⟩

end Sys2Proof.Machine

/-! # The families of 47_exchange.md and 48_cpu_control.md

An exchange of registers is the two banks rewritten after the prologue; a stack exchange is a load of the old word from a
state whose memory already holds the new one. A control instruction is the prologue and at most one control bit; HALT has
two ends, chosen by IFF and the frame boundary. -/

namespace Sys2Proof.Machine

/-! ## Exchanges of registers (rules R320 to R322) -/

theorem banks_end (s : State) (n len ts : Nat) (g k : RegSet) :
    ∃ t, State.endSeq { s.prologue n with main := g, shadow := k } len ts = .next t ∧
      Bookkept s t n ts (s.pc + BitVec.ofNat 16 len) ∧ t.main = g ∧ t.shadow = k ∧
      t = { s.clocked t with main := g, shadow := k } :=
  ⟨_, rfl, bookkept_of rfl rfl rfl rfl, rfl, rfl, rfl⟩

theorem RegSet.setAF_af (g k : RegSet) : g.setAF k.af = { g with a := k.a, f := k.f } := by
  rw [RegSet.setAF, RegSet.af, hiByte_pair, loByte_pair]

theorem RegSet.setDE_setHL_swap (g : RegSet) :
    (g.setDE g.hl).setHL g.de = { g with d := g.h, e := g.l, h := g.d, l := g.e } := by
  simp only [RegSet.setDE, RegSet.setHL, RegSet.hl, RegSet.de, hiByte_pair, loByte_pair]

theorem exAfAf_end (s : State) :
    ∃ t, exec .exAfAf s = .next t ∧ Bookkept s t 1 4 (s.pc + 1) ∧
      t = { s.clocked t with
        main := { s.main with a := s.shadow.a, f := s.shadow.f },
        shadow := { s.shadow with a := s.main.a, f := s.main.f } } := by
  rw [← RegSet.setAF_af, ← RegSet.setAF_af]
  obtain ⟨t, ht, hbook, -, -, hframe⟩ := banks_end s 1 1 4 (s.main.setAF s.shadow.af) (s.shadow.setAF s.main.af)
  exact ⟨t, ht, hbook, hframe⟩

theorem exDEHL_end (s : State) :
    ∃ t, exec .exDEHL s = .next t ∧ Bookkept s t 1 4 (s.pc + 1) ∧
      t = { s.clocked t with main := { s.main with d := s.main.h, e := s.main.l, h := s.main.d, l := s.main.e } } := by
  rw [← RegSet.setDE_setHL_swap]
  obtain ⟨t, ht, hbook, -, -, hframe⟩ := banks_end s 1 1 4 ((s.main.setDE s.hl).setHL s.de) s.shadow
  exact ⟨t, ht, hbook, hframe⟩

theorem exx_end (s : State) :
    ∃ t, exec .exx s = .next t ∧ Bookkept s t 1 4 (s.pc + 1) ∧
      t.main = { s.shadow with a := s.main.a, f := s.main.f } ∧
      t.shadow = { s.main with a := s.shadow.a, f := s.shadow.f } ∧
      t = { s.clocked t with main := t.main, shadow := t.shadow } := by
  obtain ⟨t, ht, hbook, hmain, hshadow, hframe⟩ := banks_end s 1 1 4 { s.shadow with a := s.main.a, f := s.main.f }
    { s.main with a := s.shadow.a, f := s.shadow.f }
  rw [← hmain, ← hshadow] at hframe
  exact ⟨t, ht, hbook, hmain, hshadow, hframe⟩

/-! ## Exchanges with the stack (rules R323, R324) -/

/-- The bookkeeping does not look at memory. -/
theorem bookkept_of_mem {s t : State} {m : Memory} {a : Word} {n ts : Nat} (h : Bookkept { s with mem := m } t n ts a) :
    Bookkept s t n ts a :=
  ⟨h.pc, h.time, ⟨h.counted.bit7, h.counted.low7⟩, h.last⟩

theorem writeWord_prologue_eq (s : State) (n : Nat) (a v : Word) :
    (s.prologue n).writeWord a v = State.prologue { s with mem := (s.writeWord a v).mem } n := by
  rw [writeWord_eq, writeWord_mem_congr (s := s) (t := s.prologue n) rfl]
  rfl

theorem exec_exSPXY_eq (s : State) (x : XY) :
    exec (.exSPXY x) s =
      ((State.prologue { s with mem := (s.writeWord s.sp (s.xy x)).mem } 2).setXY x (s.readWord s.sp)).endSeq 2 23 := by
  rw [← writeWord_prologue_eq, ← xy_prologue s 2 x]
  rfl

theorem exSPHL_end {s : State} (hs : s.mem.wf = true) :
    ∃ t, exec .exSPHL s = .next t ∧ Bookkept s t 1 19 (s.pc + 1) ∧ WordAt s s.sp t.hl ∧ StoredWord s t s.sp s.hl ∧
      t = { s.clocked t with mem := t.mem, main := { s.main with h := t.main.h, l := t.main.l } } := by
  have ho : exec .exSPHL s =
      ((State.prologue { s with mem := (s.writeWord s.sp s.hl).mem } 1).setHL (s.readWord s.sp)).endSeq 1 19 := by
    rw [← writeWord_prologue_eq]
    rfl
  refine ⟨_, ho, bookkept_of rfl rfl rfl rfl, ?_, storedWord_of_mem hs rfl, rfl⟩
  show WordAt s s.sp (pair (hiByte (s.readWord s.sp)) (loByte (s.readWord s.sp)))
  rw [pair_hi_lo]
  exact wordAt_readWord s s.sp

theorem exSPXY_end {s : State} (hs : s.mem.wf = true) (x : XY) :
    ∃ t, exec (.exSPXY x) s = .next t ∧ Bookkept s t 2 23 (s.pc + 2) ∧ WordAt s s.sp (t.xy x) ∧
      StoredWord s t s.sp (s.xy x) ∧ (∀ y, y ≠ x → t.xy y = s.xy y) ∧
      t = { s.clocked t with mem := t.mem, ixh := t.ixh, ixl := t.ixl, iyh := t.iyh, iyl := t.iyl } := by
  obtain ⟨t, ht, hbook, hgot, hothers, hframe⟩ :=
    setXY_end { s with mem := (s.writeWord s.sp (s.xy x)).mem } 2 2 23 x (s.readWord s.sp)
  have hmem : t.mem = (s.writeWord s.sp (s.xy x)).mem := by rw [hframe]; rfl
  refine ⟨t, (exec_exSPXY_eq s x).trans ht, bookkept_of_mem hbook, ?_, storedWord_of_mem hs hmem,
    fun y hy => (hothers y hy).trans (by cases y <;> rfl), ?_⟩
  · rw [hgot]
    exact wordAt_readWord s s.sp
  · rw [hmem]
    exact hframe

/-- Settles O51: the banks rewritten, or the old word loaded after the register was stored. -/
theorem exchanges : Obligations.Exchanges := fun s hs =>
  ⟨exAfAf_end s, exDEHL_end s, exx_end s, exSPHL_end hs, exSPXY_end hs⟩

/-! ## The control instructions (rules R330, R332 to R336, R339, R340) -/

theorem edNoOp_end (s : State) : ∃ t, edNoOp s = .next t ∧ Bookkept s t 2 8 (s.pc + 2) ∧ OnlyClocked s t :=
  finish_only s 2 8 (s.pc + 2)

theorem setIM_end (s : State) (m : IntMode) :
    ∃ t, State.endSeq { s.prologue 2 with im := m } 2 8 = .next t ∧ Bookkept s t 2 8 (s.pc + 2) ∧
      t = { s.clocked t with im := m } :=
  ⟨_, rfl, bookkept_of rfl rfl rfl rfl, rfl⟩

theorem lonePrefix_end (s : State) (x : XY) :
    ∃ t, exec (.lonePrefix x) s = .next t ∧ t.pc = s.pc + 1 ∧ t.t = s.t + 4 ∧ CountedR s t 1 ∧ t.last = .lonePrefix ∧
      OnlyClocked s t :=
  ⟨_, rfl, rfl, rfl, .of_r rfl, rfl, rfl⟩

theorem di_end (s : State) :
    ∃ t, exec .di s = .next t ∧ Bookkept s t 1 4 (s.pc + 1) ∧ t = { s.clocked t with iff := false } :=
  ⟨_, rfl, bookkept_of rfl rfl rfl rfl, rfl⟩

theorem ei_end (s : State) :
    ∃ t, exec .ei s = .next t ∧ t.pc = s.pc + 1 ∧ t.t = s.t + 4 ∧ CountedR s t 1 ∧ t.last = .ei ∧
      t = { s.clocked t with iff := true } :=
  ⟨_, rfl, rfl, rfl, .of_r rfl, rfl, rfl⟩

/-- Settles O52: the operand of an ED no-op and of IM is not looked at. -/
theorem cpuControl : Obligations.CpuControl := fun s =>
  ⟨finish_only s 1 4 (s.pc + 1), edNoOp_end s, edNoOp_end s, fun _ => edNoOp_end s, fun _ => edNoOp_end s,
    fun _ => edNoOp_end s, lonePrefix_end s, di_end s, ei_end s, fun _ => setIM_end s .im0, fun _ => setIM_end s .im1,
    fun _ => setIM_end s .im2⟩

/-! ## HALT (rule R331) -/

/-- The fields outside PC, T, R and LAST that the acceptance check reads or writes. -/
theorem OnlyClocked.kept {s t : State} (h : OnlyClocked s t) :
    t.iff = s.iff ∧ t.cfg = s.cfg ∧ t.mem = s.mem ∧ t.sp = s.sp := by
  rw [h]
  exact ⟨rfl, rfl, rfl, rfl⟩

theorem haltPasses_iff (s : State) :
    (s.iff && crossesFrame s.cfg s.t) = true ↔
      s.iff = true ∧ s.t / s.cfg.frameDuration < (s.t + 4) / s.cfg.frameDuration := by
  rw [Bool.and_eq_true, crossesFrame, decide_eq_true_iff, gt_iff_lt]

/-- Settles O53: the two ends of HALT differ in PC and LAST alone. -/
theorem halt : Obligations.Halt := by
  intro s
  have hpasses : ∃ t, (s.prologue 1).endSeq 1 4 = .next t ∧ (t.pc = s.pc + 1 ∧ t.last = .other) ∧
      t.t = s.t + 4 ∧ CountedR s t 1 ∧ OnlyClocked s t := ⟨_, rfl, ⟨rfl, rfl⟩, rfl, .of_r rfl, rfl⟩
  have hstays : ∃ t, State.finish { s.prologue 1 with last := .halted } s.pc 4 = .next t ∧
      (t.pc = s.pc ∧ t.last = .halted) ∧ t.t = s.t + 4 ∧ CountedR s t 1 ∧ OnlyClocked s t :=
    ⟨_, rfl, ⟨rfl, rfl⟩, rfl, .of_r rfl, rfl⟩
  obtain ⟨t, ho, ⟨htime, hcounted, hframe⟩, hend⟩ := exists_next_of_branch_both (haltPasses_iff s) hpasses hstays
  exact ⟨t, ho, htime, hcounted, hframe, hend⟩

end Sys2Proof.Machine

/-! # The family of 60_exceptions.md

Every instruction completes (`exec_completes`), so every step is one instruction and the acceptance check, and `run` is a
loop of such steps. What acceptance does is said by the laws of Laws/Ops.lean; a step that runs EI, a lone DD or FD, or
HALT is the state the instruction leaves and the question whether the check accepts there. -/

namespace Sys2Proof.Machine

/-! ## Progress (rules R102, R350) -/

theorem exists_step_next (s : State) : ∃ t, step s = .next t := by
  obtain ⟨u, hu, -⟩ := exec_completes s.fetchInstr s
  exact ⟨u.acceptanceCheck, by rw [step, hu]⟩

/-- Settles O6: the instruction completes, and the acceptance check always answers. -/
theorem everyInstructionAndEveryStepGoesOn : Obligations.EveryInstructionAndEveryStepGoesOn :=
  ⟨fun i s => (exec_completes i s).imp fun _ h => h.1, exists_step_next⟩

/-! ## Acceptance (rules R351, R353 to R357) -/

/-- Settles O54: the two outcomes of the check, by `accepts_iff` and `takeInterrupt_spec`. -/
theorem interruptAcceptance : Obligations.InterruptAcceptance := fun _ hs =>
  ⟨acceptanceCheck_accepts hs, acceptanceCheck_declines⟩

/-- The step on an instruction known to lead to `u` is the acceptance check of `u`. -/
theorem eq_acceptanceCheck_of_step {i : Instr} {s t u : State} (hi : s.fetchInstr = i) (hu : exec i s = .next u)
    (h : step s = .next t) : t = u.acceptanceCheck := by
  rw [step, hi, hu] at h
  exact (Host.Outcome.next.inj h).symm

/-- Where the check declines, the step is the instruction and no more. -/
theorem eq_of_step_of_not_mayAccept {i : Instr} {s t u : State} (hi : s.fetchInstr = i) (hu : exec i s = .next u)
    (hdeclines : ¬ MayAccept u) (h : step s = .next t) : t = u :=
  (eq_acceptanceCheck_of_step hi hu h).trans (acceptanceCheck_declines hdeclines)

/-- Settles O55: EI and a lone DD or FD leave the LAST at which the check declines (R353). -/
theorem acceptanceIsDeferred : Obligations.AcceptanceIsDeferred := by
  refine fun s t h => ⟨fun hi => ?ei, fun x hi => ?lonePrefix⟩
  case ei =>
    obtain ⟨u, hu, hpc, -, -, hlast, hframe⟩ := ei_end s
    have hdeclines : ¬ MayAccept u := fun ⟨_, hne, _⟩ => hne hlast
    obtain rfl := eq_of_step_of_not_mayAccept hi hu hdeclines h
    exact ⟨hu, congrArg State.iff hframe, hpc⟩
  case lonePrefix =>
    obtain ⟨u, hu, hpc, -, -, hlast, hframe⟩ := lonePrefix_end s x
    have hdeclines : ¬ MayAccept u := fun ⟨_, _, hne, _⟩ => hne hlast
    obtain rfl := eq_of_step_of_not_mayAccept hi hu hdeclines h
    exact ⟨hu, hframe.kept.1, hpc⟩

/-! ## Steps on a HALT (rules R331, R351, R357) -/

/-- Just past a multiple of `f` the remainder is small. -/
theorem add_mod_lt_of_div_lt {t k f : Nat} (h : t / f < (t + k) / f) : (t + k) % f < k := by
  have hf : 0 < f := Nat.pos_of_ne_zero fun h0 => by simp [h0] at h
  have hlt : t < (t + k) / f * f := (Nat.div_lt_iff_lt_mul hf).mp h
  have hsum := Nat.div_add_mod' (t + k) f
  omega

/-- A HALT that passes its frame boundary stands where the request line is active, INT_ACTIVE being at least 4 (R351). -/
theorem mayAccept_of_crossesFrame {s u : State} (htime : u.t = s.t + 4) (hcfg : u.cfg = s.cfg) (hiff : u.iff = true)
    (hlast : u.last = .other) (hact : 4 ≤ s.cfg.intActive)
    (hcross : s.t / s.cfg.frameDuration < (s.t + 4) / s.cfg.frameDuration) : MayAccept u := by
  have hmod := add_mod_lt_of_div_lt hcross
  refine ⟨hiff, hlast ▸ nofun, hlast ▸ nofun, ?_, ?_⟩
  · rw [hcfg]
    omega
  · rw [htime, hcfg]
    omega

/-- Where the check cleared IFF, it accepted (R354). -/
theorem mayAccept_of_iff_cleared {u : State} (hiff : u.iff = true) (h : u.acceptanceCheck.iff = false) : MayAccept u := by
  by_contra hdeclines
  rw [acceptanceCheck_declines hdeclines, hiff] at h
  exact Bool.noConfusion h

/-- Passed or halted, the return address of a HALT is the one after it (R354, R357). -/
theorem returnAddr_after_halt {s u : State} {p : Prop} [Decidable p]
    (h : if p then u.pc = s.pc + 1 ∧ u.last = .other else u.pc = s.pc ∧ u.last = .halted) :
    (if u.last = .halted then u.pc + 1 else u.pc) = s.pc + 1 := by
  by_cases hp : p
  · obtain ⟨hpc, hlast⟩ := (if_pos hp).mp h
    rw [hlast, if_neg nofun, hpc]
  · obtain ⟨hpc, hlast⟩ := (if_neg hp).mp h
    rw [hlast, if_pos rfl, hpc]

/-- A store is seen by memory alone. -/
theorem StoredWord.of_mem_eq {s u t : State} {a v : Word} (h : StoredWord u t a v) (hm : u.mem = s.mem) :
    StoredWord s t a v := by
  have hr := fun b => readByte_congr hm b
  refine ⟨?_, ?_, fun b h1 h2 => ?_⟩
  · rw [h.low, hr]
  · rw [h.high, hr]
  · rw [h.elsewhere b h1 h2, hr]

/-- Settles O56: HALT leaves everything but PC, R, T and LAST, so with IFF clear the check declines; with IFF set it
accepts past a frame boundary, and the address pushed is the one after the HALT. -/
theorem haltSteps : Obligations.HaltSteps := by
  refine ⟨fun s t hi hiff h => ?stays, fun s t hs _ hi hiff h => ?wakes⟩
  case stays =>
    obtain ⟨u, hu, htime, hcounted, hframe, hend⟩ := halt s
    have huiff : u.iff = false := hframe.kept.1.trans hiff
    have hdeclines : ¬ MayAccept u := fun ⟨hset, _⟩ => Bool.noConfusion (hset.symm.trans huiff)
    obtain rfl := eq_of_step_of_not_mayAccept hi hu hdeclines h
    rw [if_neg fun ⟨hset, _⟩ => Bool.noConfusion (hset.symm.trans hiff)] at hend
    exact ⟨hend.1, hend.2, htime, hcounted, hframe⟩
  case wakes =>
    obtain ⟨u, hu, htime, -, hframe, hend⟩ := halt s
    obtain rfl := eq_acceptanceCheck_of_step hi hu h
    obtain ⟨hkept, hcfg, hmem, hsp⟩ := hframe.kept
    have huiff : u.iff = true := hkept.trans hiff
    have haccepted (hmay : MayAccept u) : Accepted u u.acceptanceCheck := acceptanceCheck_accepts (hmem ▸ hs) hmay
    refine ⟨fun hact hcross => ?_, fun hcleared => ?_⟩
    · rw [if_pos ⟨hiff, hcross⟩] at hend
      exact (haccepted (mayAccept_of_crossesFrame htime hcfg huiff hend.2 hact hcross)).disabled
    · have hacc := haccepted (mayAccept_of_iff_cleared huiff hcleared)
      have hpushed := hacc.pushed.of_mem_eq hmem
      rw [returnAddr_after_halt hend, hsp] at hpushed
      exact ⟨hpushed, hsp ▸ hacc.sp, hacc.last⟩

/-! ## `run` (rules R371, R373) -/

section Run

variable {a : Word} {fuel k : Nat} {s u : State} (hu : step s = .next u)

include hu

theorem runLoop_none : runLoop noTrace none (fuel + 1) s = .returned u := by
  rw [runLoop, hu]
  rfl

theorem runLoop_some :
    runLoop noTrace (some a) (fuel + 1) s = if u.pc = a then .returned u else runLoop noTrace (some a) fuel u := by
  rw [runLoop, hu]
  rfl

theorem core_run_succ : core.run (k + 1) s = core.run k u := by
  simp only [Host.Core.run, show core.step s = .next u from hu]

end Run

/-- Some number of steps from `s`, at least one and at most `fuel`, leads to `t` with PC = `a`, and no smaller number from
one on leads to PC = `a`. -/
def ReachesStop (a : Word) (fuel : Nat) (s t : State) : Prop :=
  ∃ n, 1 ≤ n ∧ n ≤ fuel ∧ core.run n s = .next t ∧ t.pc = a ∧
    ∀ m u, 1 ≤ m → m < n → core.run m s = .next u → u.pc ≠ a

theorem not_reachesStop_zero (a : Word) (s t : State) : ¬ ReachesStop a 0 s t := by
  rintro ⟨n, h1, h0, -⟩
  omega

/-- Where the first step already reaches the stop address, its state is the one reached. -/
theorem reachesStop_succ_of_pc_eq {a : Word} {fuel : Nat} {s t u : State} (hu : step s = .next u) (hpc : u.pc = a) :
    ReachesStop a (fuel + 1) s t ↔ u = t := by
  have hone : core.run 1 s = .next u := core_run_succ hu
  constructor
  · rintro ⟨n, h1, -, hrun, -, hfirst⟩
    obtain rfl : n = 1 := by
      by_contra hne
      exact hfirst 1 u le_rfl (by omega) hone hpc
    exact Host.Outcome.next.inj (hone.symm.trans hrun)
  · rintro rfl
    exact ⟨1, le_rfl, by omega, hone, hpc, fun m _ h1 hm => by omega⟩

/-- Where it does not, the stop address is reached from the state after it. -/
theorem reachesStop_succ_of_pc_ne {a : Word} {fuel : Nat} {s t u : State} (hu : step s = .next u) (hpc : u.pc ≠ a) :
    ReachesStop a (fuel + 1) s t ↔ ReachesStop a fuel u t := by
  have hone : core.run 1 s = .next u := core_run_succ hu
  constructor
  · rintro ⟨n, h1, hn, hrun, hstop, hfirst⟩
    obtain ⟨k, rfl⟩ := Nat.exists_eq_add_of_le' h1
    rw [core_run_succ hu] at hrun
    have hk : k ≠ 0 := by
      rintro rfl
      cases Host.Outcome.next.inj hrun
      exact hpc hstop
    exact ⟨k, by omega, by omega, hrun, hstop, fun m v _ hm hv =>
      hfirst (m + 1) v (by omega) (by omega) ((core_run_succ hu).trans hv)⟩
  · rintro ⟨k, h1, hk, hrun, hstop, hfirst⟩
    refine ⟨k + 1, by omega, by omega, (core_run_succ hu).trans hrun, hstop, fun m v h1 hm hv => ?_⟩
    obtain ⟨j, rfl⟩ := Nat.exists_eq_add_of_le' h1
    rw [core_run_succ hu] at hv
    cases j with
    | zero =>
      cases Host.Outcome.next.inj hv
      exact hpc
    | succ j => exact hfirst (j + 1) v (by omega) (by omega) hv

theorem runLoop_some_iff (fuel : Nat) (a : Word) (s t : State) :
    runLoop noTrace (some a) fuel s = .returned t ↔ ReachesStop a fuel s t := by
  induction fuel generalizing s with
  | zero => exact iff_of_false nofun (not_reachesStop_zero a s t)
  | succ fuel ih =>
    obtain ⟨u, hu⟩ := exists_step_next s
    rw [runLoop_some hu]
    by_cases hpc : u.pc = a
    · rw [if_pos hpc, reachesStop_succ_of_pc_eq hu hpc, RunEnd.returned.injEq]
    · rw [if_neg hpc, reachesStop_succ_of_pc_ne hu hpc, ih]

theorem runLoop_none_iff (n : Nat) (s t : State) :
    runLoop noTrace none (n + 1) s = .returned t ↔ step s = .next t := by
  obtain ⟨u, hu⟩ := exists_step_next s
  rw [runLoop_none hu, hu, RunEnd.returned.injEq, Host.Outcome.next.injEq]

/-- Settles O58: without a stop address by one turn of the loop, with one by induction on the bound of the steps. -/
theorem runIsStepsToTheStop : Obligations.RunIsStepsToTheStop := by
  refine ⟨fun n start s t => ?_, runLoop_some_iff⟩
  cases start with
  | none => exact runLoop_none_iff n s t
  | some a => exact runLoop_none_iff n _ t

end Sys2Proof.Machine
